-- ==== Sys2Proof/Word.lean ====
section
/-!
DEFINITION. The word types: bytes of packets and memories, and the register words of the Joiner.
-/

namespace Sys2Proof

/-- A byte of a packet, of flash or of Joiner memory. -/
abbrev Byte := BitVec 8
/-- A 16-bit vector lane (R234). -/
abbrev Half := BitVec 16
/-- A 32-bit scalar, address word or entry word. -/
abbrev Word := BitVec 32
/-- A 40-bit accumulator lane. -/
abbrev Acc := BitVec 40

end Sys2Proof
end

