-- ==== Sys2Proof/Machine/StateCore.lean ====
section
/-!
DEFINITION. State of the command protocol, the commit controllers, the event log and the capture engines
(chapters 1, 10, 11 and 17).
-/

namespace Sys2Proof.Machine

/-- The transports a request can arrive on: SPI, I2C and, on a rafter, the Tenon chain (R292, R455). -/
inductive Via where
  | spi | i2c | tenon
  deriving DecidableEq, Repr

/-- A request whose sync byte, length, CRC and opcode have been checked: transport, tag, flag byte and parameters
(Table 10-1). -/
structure Request where
  via : Via
  tag : Byte
  flags : Byte
  params : List Byte
  deriving DecidableEq, Repr

/-- Status codes of Table 10-6. -/
inductive Status where
  | ok | accepted | badOpcode | badLength | badCrc | badAddress | conflict | runLocked | precondition | truncated
  | busy | timeout | denied | hwFault
  deriving DecidableEq, Repr

/-- The code of a status (Table 10-6). -/
def Status.code : Status → Nat
  | .ok => 0x00
  | .accepted => 0x01
  | .badOpcode => 0x10
  | .badLength => 0x11
  | .badCrc => 0x12
  | .badAddress => 0x13
  | .conflict => 0x20
  | .runLocked => 0x21
  | .precondition => 0x22
  | .truncated => 0x23
  | .busy => 0x30
  | .timeout => 0x31
  | .denied => 0x40
  | .hwFault => 0x50

/-- What a reply carries: payload bytes, or the error payload of Table 10-3 (name, ADDRESS, DETAIL). -/
inductive Body where
  | data (bytes : List Byte)
  | err (name : String) (address detail : Nat)
  deriving DecidableEq, Repr

/-- Which request a reply or a long operation belongs to: the device's own serial number for it, transport, tag,
opcode, NOTIFY, and the Tenon prefix to return (R297). -/
structure ReqRef where
  rid : Nat
  via : Via
  tag : Byte
  op : Nat
  notify : Bool
  pre : List Byte
  deriving DecidableEq, Repr

/-- A queued reply (Table 10-2). -/
structure Reply where
  ref : ReqRef
  status : Status
  tick16 : Nat
  body : Body
  /-- The final reply of its request (R295). -/
  final : Bool
  deriving DecidableEq, Repr

/-- A request kept until the management controller serves again (R301), or not yet taken in because the reply queue is
full (R321). -/
structure Waiting where
  ref : ReqRef
  flags : Byte
  params : List Byte
  /-- Not yet taken in: the reply queue was full when it arrived. -/
  fresh : Bool
  deriving DecidableEq, Repr

/-- One transport (R295): outstanding requests, reply queue, waiting requests, and the bytes last driven out. -/
structure Transport where
  outstanding : List ReqRef
  replies : List Reply
  waiting : List Waiting
  out : List Byte
  deriving DecidableEq, Repr

/-- A table set that TABLE_LOAD or the recipe path has placed in a shadow (R308): kind, instance, words, EPOCH. -/
structure TableSet where
  kind : Nat
  inst : Nat
  words : List Nat
  epoch : Nat
  deriving DecidableEq, Repr

/-- A section of a recipe bundle (R289): type code of Table 9-11, lane mask, 16-bit words. -/
structure Section where
  typ : Nat
  mask : Nat
  words : List Nat
  deriving DecidableEq, Repr

/-- A recipe bundle: sequence number (0 the factory content) and sections. -/
structure Bundle where
  seq : Nat
  sections : List Section
  deriving DecidableEq, Repr

/-- A commit accepted and not yet effective (R31). -/
structure PendingCommit where
  target : Nat
  armed : Bool
  frozen : List (Nat × Nat)
  tables : List TableSet
  bundle : Option Bundle
  ref : ReqRef
  deriving DecidableEq, Repr

/-- One commit domain (R30): staged fields as (address, value), HELD table sets, staged bundle, pending commit; the
boundary of the last commit and the (kind, instance) of its table sets (R130). -/
structure Domain where
  staged : List (Nat × Nat)
  held : List TableSet
  bundle : Option Bundle
  commit : Option PendingCommit
  last : Option (Nat × List (Nat × Nat))
  deriving DecidableEq, Repr

/-- A live write waiting for its boundary (R19), as field writes. -/
structure LiveWrite where
  addr : Nat
  value : Nat
  due : Nat
  deriving DecidableEq, Repr

/-- Where a TABLE_LOAD stands (R308). -/
inductive LoadPhase where
  /-- Between segments. -/
  | between
  /-- ACCEPTED, waiting for an armed publish or an earlier write to end. -/
  | waits
  /-- Its shadow is being written and verified. -/
  | writing
  deriving DecidableEq, Repr

/-- A TABLE_LOAD not yet HELD. -/
structure Load where
  kind : Nat
  inst : Nat
  next : Nat
  words : List Nat
  phase : LoadPhase
  epoch : Nat
  ref : Option ReqRef
  deriving DecidableEq, Repr

/-- Kinds of unit RETIRE_UNIT names (Table 10-4). -/
inductive UnitKind where
  | slice | ctxReplica | shpReplica | evaluator | subDac
  deriving DecidableEq, Repr

/-- One retirement of a pending unit commit (R137), with the spare chosen at arming. -/
structure Retirement where
  kind : UnitKind
  lane : Nat
  index : Nat
  spare : Option Nat
  refused : Option String
  ref : Option ReqRef
  deriving DecidableEq, Repr

/-- The pending unit commit (R137). -/
structure UnitCommit where
  target : Nat
  armed : Bool
  items : List Retirement
  deriving DecidableEq, Repr

/-- A pending LANE_UP or LANE_DOWN (R310). -/
structure LaneReq where
  up : Bool
  line : Nat
  host : Nat
  target : Nat
  /-- None where the device itself asks (warm reset, activation, join). -/
  ref : Option ReqRef
  deriving DecidableEq, Repr

/-- A long-running operation (R302): its request, a lane or target number, phase, percent, elapsed and remaining
milliseconds and the TICKNO at its start. -/
structure LongOp where
  ref : ReqRef
  sub : Nat
  phase : Nat
  percent : Nat
  elapsed : Nat
  remaining : Nat
  start : Nat
  deriving DecidableEq, Repr

/-- An event-log entry (Table 17-2); a continuation carries data bytes only. -/
structure LogEntry where
  seq : Nat
  tick : Nat
  level : Nat
  irq : Bool
  fault : Bool
  die1 : Bool
  more : Bool
  cont : Bool
  inst : Nat
  code : Nat
  detail : Nat
  data : List Byte
  deriving DecidableEq, Repr

/-- Entries suppressed under R479 for one code and instance. -/
structure Suppressed where
  code : Nat
  inst : Nat
  level : Nat
  die1 : Bool
  count : Nat
  deriving DecidableEq, Repr

/-- A line capture ring (R469). -/
structure CapRing where
  point : Nat
  trigger : Nat
  pre : Nat
  post : Nat
  trigTick : Nat
  /-- The TICKNO of the trigger. -/
  firedAt : Nat
  /-- Capture words by position modulo 16,384, sparse over the all-zero word. -/
  words : List (Nat × Nat)
  ref : Option ReqRef
  /-- A capture word of four SHADOW data-path words under assembly. -/
  part : List Int
  /-- Trigger position of an armed event that has occurred (R471). -/
  hit : Option Nat
  /-- Ring words (position modulo 16,384) that fail their check (R469). -/
  bad : List Nat
  deriving DecidableEq, Repr

/-- A histogram run in progress (R476): bins and ticks left. -/
structure HistRun where
  bins : List Nat
  left : Nat
  deriving DecidableEq, Repr

def Transport.reset : Transport := ⟨[], [], [], []⟩
def Domain.reset : Domain := ⟨[], [], none, none, none⟩
def CapRing.reset : CapRing := ⟨0, 0, 0, 0, 0, 0, [], none, [], none, []⟩

end Sys2Proof.Machine
end

