-- ==== Sys2Proof/Machine/Bits.lean ====
section
/-!
DEFINITION. Bit fields, signed values, saturation, byte order and the two CRCs of R20.
-/

namespace Sys2Proof.Machine

/-- Bits [hi:lo] of a value (R13). -/
def bits (v hi lo : Nat) : Nat := v / 2 ^ lo % 2 ^ (hi + 1 - lo)

/-- `v` with bit `i` set to `b`. -/
def setBit (v i : Nat) (b : Bool) : Nat :=
  if v.testBit i = b then v else if b then v + 2 ^ i else v - 2 ^ i

/-- The signed value of a `w`-bit two's-complement pattern (R15). -/
def sgn (w v : Nat) : Int :=
  let v := v % 2 ^ w
  if v < 2 ^ (w - 1) then (v : Int) else (v : Int) - (2 ^ w : Nat)

/-- The `w`-bit two's-complement pattern of a value (R324). -/
def enc (w : Nat) (x : Int) : Nat := (x % ((2 ^ w : Nat) : Int)).toNat

/-- Saturation to a signed `w`-bit format (R47). -/
def sat (w : Nat) (x : Int) : Int :=
  let hi : Int := ((2 ^ (w - 1) : Nat) : Int) - 1
  let lo : Int := -((2 ^ (w - 1) : Nat) : Int)
  if x > hi then hi else if x < lo then lo else x

/-- Arithmetic shift right of an integer. -/
def asr (x : Int) (k : Nat) : Int := x / ((2 ^ k : Nat) : Int)

/-- A byte of a natural number. -/
def byteOf (v : Nat) : Byte := BitVec.ofNat 8 v

/-- The `n` little-endian bytes of a value (R292). -/
def le : Nat → Nat → List Byte
  | 0, _ => []
  | n + 1, v => byteOf (v % 256) :: le n (v / 256)

/-- The value of little-endian bytes. -/
def unle : List Byte → Nat
  | [] => 0
  | b :: bs => b.toNat + 256 * unle bs

/-- `n` bytes from position `i` as a little-endian value; bytes beyond the end read as zero. -/
def getLe (bs : List Byte) (i n : Nat) : Nat := unle ((bs.drop i).take n)

/-- One bit of CRC-16, polynomial 0x1021 (R20). -/
def crc16Bit (c : BitVec 16) : BitVec 16 := if c.msb then (c <<< 1) ^^^ 0x1021 else c <<< 1

/-- CRC-16 of R20 over bytes. -/
def crc16 (bs : List Byte) : BitVec 16 :=
  bs.foldl (fun (c : BitVec 16) (b : Byte) =>
    (List.range 8).foldl (fun c _ => crc16Bit c) (c ^^^ (BitVec.ofNat 16 (b.toNat * 256)))) 0xFFFF

/-- One bit of CRC-32, reflected polynomial 0x04C1_1DB7 (R20). -/
def crc32Bit (c : BitVec 32) : BitVec 32 := if c.getLsbD 0 then (c >>> 1) ^^^ 0xEDB88320 else c >>> 1

/-- CRC-32 of R20 over bytes. -/
def crc32 (bs : List Byte) : BitVec 32 :=
  (bs.foldl (fun (c : BitVec 32) (b : Byte) =>
    (List.range 8).foldl (fun c _ => crc32Bit c) (c ^^^ BitVec.ofNat 32 b.toNat)) 0xFFFFFFFF) ^^^ 0xFFFFFFFF

/-- The bytes of an ASCII name, zero-padded or truncated to `n` (Table 10-3). -/
def nameBytes (n : Nat) (s : String) : List Byte :=
  ((s.toList.map fun (c : Char) => byteOf c.toNat) ++ List.replicate n 0).take n

/-- A sparse map in canonical form: keys strictly rising, no entry equal to the default `d`. -/
def spGet (d : Nat) : List (Nat × Nat) → Nat → Nat
  | [], _ => d
  | (k, v) :: m, a => if k = a then v else spGet d m a

/-- Insert into a list with rising keys, replacing an equal key. -/
def spPut : List (Nat × Nat) → Nat → Nat → List (Nat × Nat)
  | [], a, v => [(a, v)]
  | (k, w) :: m, a, v =>
    if a < k then (a, v) :: (k, w) :: m
    else if a = k then (a, v) :: m
    else (k, w) :: spPut m a v

/-- Remove every entry of a key. -/
def spDel : List (Nat × Nat) → Nat → List (Nat × Nat)
  | [], _ => []
  | (k, w) :: m, a => if k = a then spDel m a else (k, w) :: spDel m a

/-- Write a value, keeping the canonical form: the default value removes the entry. -/
def spSet (d : Nat) (m : List (Nat × Nat)) (a v : Nat) : List (Nat × Nat) :=
  if v = d then spDel m a else spPut m a v

/-- A sparse map of consecutive values from address `a` on. -/
def spFill (d : Nat) (m : List (Nat × Nat)) : Nat → List Nat → List (Nat × Nat)
  | _, [] => m
  | a, v :: vs => spFill d (spSet d m a v) (a + 1) vs

/-- The canonical form of a sparse map with default `d`. -/
def spWf (d : Nat) : List (Nat × Nat) → Bool
  | [] => true
  | [(_, v)] => decide (v ≠ d)
  | (k, v) :: (k', v') :: m => decide (v ≠ d) && decide (k < k') && spWf d ((k', v') :: m)

/-- Change the element at an index of a list whose elements beyond the end read as `d`. -/
def modNth {α : Type} (d : α) (l : List α) (i : Nat) (f : α → α) : List α :=
  match i, l with
  | 0, [] => [f d]
  | 0, x :: xs => f x :: xs
  | i + 1, [] => d :: modNth d [] i f
  | i + 1, x :: xs => x :: modNth d xs i f

/-- Replace the element at an index. -/
def setNth {α : Type} (d : α) (l : List α) (i : Nat) (x : α) : List α := modNth d l i fun _ => x

/-- The 32 lanes of a vector; lanes beyond the end read as `d`. -/
def lanes32 {α : Type} (d : α) (l : List α) : List α := (List.range 32).map fun k => l.getD k d

/-- Fold a list of lane numbers into a state. -/
def foldState {σ α : Type} (l : List α) (s : σ) (f : σ → α → σ) : σ := l.foldl f s

/-- Does TICKNO `t` lie at or after `u`, modulo 2^48 (R10)? -/
def reached (t u : Nat) : Bool := decide ((t + 2 ^ 48 - u % 2 ^ 48) % 2 ^ 48 < 2 ^ 47)

/-- Ticks from `u` to `t`, modulo 2^48. -/
def ticksSince (t u : Nat) : Nat := (t + 2 ^ 48 - u % 2 ^ 48) % 2 ^ 48

/-- `t` plus `n` ticks, modulo 2^48. -/
def addTicks (t n : Nat) : Nat := (t + n) % 2 ^ 48

end Sys2Proof.Machine
end

