-- ==== Sys2Proof/Machine/Types.lean ====
section
/-!
DEFINITION. The operand types of the commands: lanes, regions, ports, Joiner operand forms, and what the environment
supplies.
-/

namespace Sys2Proof

/-- A line lane L0 to L7. -/
abbrev Lane := Fin 8
/-- A host lane H0 to H15. -/
abbrev HostLane := Fin 16
/-- A die, a commit domain or a Joiner. -/
abbrev Die := Fin 2
/-- A region RG0 to RG3. -/
abbrev Region := Fin 4
/-- A Tenon port: 0 upstream, 1 downstream. -/
abbrev Port := Fin 2
/-- A bias channel. -/
abbrev Chan := Fin 24
/-- A housekeeping ring, filter, or line-lane element number. -/
abbrev Elem := Fin 8

/-- What receive calibration measures of a slice (R271, R272), in 2^-20 LSB: the mean of its codes, with the input dark or
live; the offset-corrected means with CALSRC at +187.5 mV and at −187.5 mV; the mean of the squared codes, in 2^-20 LSB²;
and by how many fs it samples after its ideal instant, its SKEW taken out. -/
structure SliceMeas where
  mean : Int
  plus : Int
  minus : Int
  square : Nat
  late : Int
  deriving DecidableEq, Repr

/-- What transmit calibration measures of a sub-DAC through the transmit sense (Table 9-5), its trims taken out: the mean
output at codes −1 and 0 and the outputs at +48 and −48, in 2^-20 LSB, and by how many fs its transitions cross late. -/
structure TrimMeas where
  zero : Int
  plus : Int
  minus : Int
  late : Int
  deriving DecidableEq, Repr

/-- What the environment supplies for the tick that ends: low detector samples of each line and host lane (R74, R188),
host recovered frequency in 0.01 ppm, phase slips and elastic-buffer offsets (R189, R190), the spares of each line lane
that differed from the evaluator they shadow (R156), and what the transmit sense of each line lane shows of its four
sub-DACs, where it has been read (R278). While the bridge is lost, whether the boundary is die 1's own (R43). -/
structure TickFacts where
  own1 : Bool
  lineLow : List Nat
  hostLow : List Nat
  cdr : List Int
  slips : List Bool
  ebuf : List Int
  mismatch : List (Nat × Nat)
  trims : List (List TrimMeas)
  deriving DecidableEq, Repr

/-- What a host-code tap has found (R163): the next codeword group begins `lead` host symbols behind the newest symbol of
each of the four lanes, at the OUT tap or the IN tap. -/
structure TapFind where
  out : Bool
  lead : List Nat
  deriving DecidableEq, Repr

/-- A step of REFCAL that can time out (Table 9-2): step 1; or step 4 or 5 of a lane, which come with the mean step 1 has
formed, 2^-14 V. -/
inductive RefStep where
  | reference
  | source (vref : BitVec 16)
  | sense (vref : BitVec 16)
  deriving DecidableEq, Repr

/-- What a partner's training frame asks of a host lane's transmitter (R185). -/
inductive TrainReq where
  | increment (tap : Fin 6)
  | decrement (tap : Fin 6)
  | noChange (tap : Fin 6)
  | preset (p : Fin 8)
  | precode (on : Bool)
  | ready
  deriving DecidableEq, Repr

/-- The second operand of a scalar operation (Table 8-8, format YS). -/
inductive Src where
  | reg (sb : BitVec 4)
  | imm (v : BitVec 17)
  deriving DecidableEq, Repr

/-- The count of a repeat block (R257). -/
inductive RepCount where
  | imm (n : BitVec 10)
  | reg (sa : BitVec 4)
  deriving DecidableEq, Repr

/-- Which of the 32-bit words a data-memory load touches read corrected and which uncorrectable (R204). -/
structure Ecc where
  fixed : BitVec 16
  bad : BitVec 16
  deriving DecidableEq, Repr

/-- Fields of a YM syllable but its opcode and register (Table 8-8). -/
structure Mem where
  a : BitVec 4
  m : BitVec 3
  amode : BitVec 2
  g : BitVec 3
  imm : BitVec 8
  deriving DecidableEq, Repr

/-- What the recipe gathered of one window on a lane, per level 0 to 3: symbols, sum of z′, sum of z′² (R283). -/
abbrev Moments := List (Nat × Int × Nat)

/-- Why a Joiner is halted for a restart (R229). -/
inductive JoinerCause where
  | exception | programMemory | sysOverrun
  deriving DecidableEq, Repr

end Sys2Proof
end

