-- ==== Sys2Proof/Machine/Calib.lean ====
section
/-!
DEFINITION. Calibration arithmetic: the words a measurement asks for, their ranges and the convergence limits of
Table 9-4, for the slices of the line ADC and for the sub-DACs (R58, R98, R271, R272, R274, R276).
-/

namespace Sys2Proof.Machine

/-- The largest number below `lo + 2^i` for which a falling condition holds, by bisection from `lo`. -/
def bisect (p : Nat → Bool) : Nat → Nat → Nat
  | 0, lo => lo
  | i + 1, lo => if p (lo + 2 ^ i) then bisect p i (lo + 2 ^ i) else bisect p i lo

/-- `a / b` to the nearest integer, a half upwards, for a positive `b`. -/
def roundDiv (a b : Int) : Int := (2 * a + b) / (2 * b)

/-- The fields a calibration finds, before they are fitted to their formats. -/
structure Fit where
  offset : Int
  gain : Int
  skew : Int
  deriving DecidableEq, Repr

/-- Is a value inside a signed field of `w` bits? -/
def inSigned (w : Nat) (x : Int) : Bool := decide (sat w x = x)
/-- A step of at most one towards a value (Table 9-6). -/
def oneStep (now want : Int) : Int := if now < want then now + 1 else if want < now then now - 1 else now
/-- A value held within `k` of another. -/
def near (k old new : Int) : Int := max (old - k) (min (old + k) new)

/-! ### Slices -/

/-- The fields of a slice correction word (Table 2-3). -/
def sliceFit (w : Nat) : Fit := ⟨sgn 8 (bits w 31 24), bits w 23 14, sgn 7 (bits w 13 7)⟩
/-- The slice correction word of fields in range. -/
def Fit.sliceWord (f : Fit) : Nat := enc 8 f.offset * 2 ^ 24 + enc 10 f.gain * 2 ^ 14 + enc 7 f.skew * 2 ^ 7
/-- Do the fields lie in the ranges of R58? -/
def Fit.sliceOk (f : Fit) : Bool := inSigned 8 f.offset && decide (0 ≤ f.gain ∧ f.gain < 1024) && inSigned 7 f.skew

/-- The skew field that moves a converter to its ideal instant (R58, R98, R271). -/
def skewFor (late : Int) : Int := roundDiv (-late) 20
/-- Is the skew residual within Table 9-4, 40 fs? -/
def skewNear (late skew : Int) : Bool := decide ((late + 20 * skew).natAbs ≤ 40)

/-- The dark method (R271, Table 9-3): OFFSET from the mean, GAIN from the two CALSRC means, SKEW from the phase. -/
def darkFit (m : SliceMeas) : Fit :=
  { offset := roundDiv (4 * m.mean) (2 ^ 20)
    gain := if m.plus ≤ m.minus then 1024 else roundDiv (2 ^ 9 * 96 * 2 ^ 20) (m.plus - m.minus)
    skew := skewFor m.late }
/-- Verification of the dark method (D5): 0.5 LSB, 0.4 % and 40 fs. -/
def darkNear (m : SliceMeas) (f : Fit) : Bool :=
  decide ((4 * m.mean - f.offset * 2 ^ 20).natAbs ≤ 2 * 2 ^ 20) &&
  decide ((f.gain * (m.plus - m.minus) - 2 ^ 9 * 96 * 2 ^ 20).natAbs * 250 ≤ 2 ^ 9 * 96 * 2 ^ 20) && skewNear m.late f.skew

/-- What the background method compares with (R272): the slices in service, their number, the sum of their means and the
sum of their mean squares after the offset is taken out, in 2^-20 of 1/16 LSB². -/
structure Peers where
  count : Nat
  mean : Int
  power : Int
  deriving DecidableEq, Repr

/-- The mean square of a slice once an offset in 1/4 LSB is taken out. -/
def slicePower (m : SliceMeas) (offset : Int) : Int := 16 * m.square - 8 * offset * m.mean + offset * offset * 2 ^ 20
/-- OFFSET of a slice: its mean less the mean over the slices in service (R272). -/
def Peers.offset (p : Peers) (m : SliceMeas) : Int := roundDiv (4 * (p.count * m.mean - p.mean)) (p.count * 2 ^ 20)
/-- The reference of the slices in service. -/
def peersOf (serv : List SliceMeas) : Peers :=
  let p : Peers := ⟨serv.length, (serv.map (·.mean)).sum, 0⟩
  { p with power := (serv.map fun m => slicePower m (p.offset m)).sum }

/-- The background method (R272): GAIN gives every slice the mean square of all. -/
def Peers.fit (p : Peers) (m : SliceMeas) : Fit :=
  let o := p.offset m
  let v := (slicePower m o * p.count).toNat
  let g := bisect (fun g => decide ((2 * g - 1) ^ 2 * v ≤ 2 ^ 20 * p.power.toNat)) 11 0
  { offset := o, gain := if v = 0 then 1024 else g, skew := skewFor m.late }
/-- Verification of the background method. -/
def Peers.near (p : Peers) (m : SliceMeas) (f : Fit) : Bool :=
  let v := slicePower m f.offset * p.count * f.gain * f.gain * 10 ^ 6
  decide ((4 * (p.count * m.mean - p.mean) - p.count * f.offset * 2 ^ 20).natAbs ≤ 2 * p.count * 2 ^ 20) &&
  decide (992016 * 2 ^ 18 * p.power ≤ v ∧ v ≤ 1008016 * 2 ^ 18 * p.power) && skewNear m.late f.skew

/-- What a receive calibration finds: the words, those of slices that fail as they were (R274), the slices that fail, and
whether a word in range misses Table 9-4 when measured again. -/
structure SliceCal where
  words : List Nat
  failed : List Nat
  degraded : Bool
  deriving DecidableEq, Repr

/-- Words for a list of fits. -/
def calWords (old : List Nat) (fits : List Fit) (nearOk : Nat → Fit → Bool) : SliceCal :=
  let fit := fun (i : Nat) => fits.getD i ⟨0, 1024, 0⟩
  let all := List.range 66
  { words := all.map fun i => if (fit i).sliceOk then (fit i).sliceWord else old.getD i 0
    failed := all.filter fun i => !(fit i).sliceOk
    degraded := all.any fun i => (fit i).sliceOk && !nearOk i (fit i) }

/-- The measurement of a slice. -/
def measOf (ms : List SliceMeas) (i : Nat) : SliceMeas := ms.getD i ⟨0, 0, 0, 0, 0⟩
/-- The dark method on all 66 slices, verified on a second measurement. -/
def darkCal (old : List Nat) (first again : List SliceMeas) : SliceCal :=
  calWords old (first.map darkFit) fun i f => darkNear (measOf again i) f
/-- The background method; `serv` lists the slices in service. -/
def liveCal (old serv : List Nat) (first again : List SliceMeas) : SliceCal :=
  let p := peersOf (serv.map (measOf again))
  calWords old (first.map (peersOf (serv.map (measOf first))).fit) fun i f => p.near (measOf again i) f

/-! ### Sub-DACs -/

/-- The fields of a sub-DAC trim word (Table 3-4). -/
def trimFit (w : Nat) : Fit := ⟨sgn 8 (bits w 31 24), sgn 8 (bits w 23 16), sgn 7 (bits w 15 9)⟩
/-- The trim word of fields in range. -/
def Fit.trimWord (f : Fit) : Nat := enc 8 f.offset * 2 ^ 24 + enc 8 f.gain * 2 ^ 16 + enc 7 f.skew * 2 ^ 9
/-- Do the fields lie in the ranges of R98? -/
def Fit.trimOk (f : Fit) : Bool := inSigned 8 f.offset && inSigned 8 f.gain && inSigned 7 f.skew

/-- The span of a sub-DAC at codes +48 and −48. -/
def trimSpan (m : TrimMeas) : Int := m.plus - m.minus
/-- Sum of the four spans. -/
def spanSum (ms : List TrimMeas) : Int := (ms.map trimSpan).sum
/-- Steps X1, X2 and X4 of Table 9-5: OFFSET takes out the mean, GAIN equalises the four spans, SKEW the crossings. -/
def trimNeed (sum : Int) (m : TrimMeas) : Fit :=
  { offset := roundDiv (-4 * m.zero) (2 ^ 20)
    gain := if trimSpan m ≤ 0 then 1024 else roundDiv (1024 * (sum - 4 * trimSpan m)) (4 * trimSpan m)
    skew := skewFor m.late }
/-- Step X5: the residuals of a sub-DAC against Table 9-4. -/
def trimNear (sum : Int) (m : TrimMeas) (f : Fit) : Bool :=
  decide ((4 * m.zero + f.offset * 2 ^ 20).natAbs ≤ 2 * 2 ^ 20) &&
  decide ((4 * trimSpan m * (1024 + f.gain) - 1024 * sum).natAbs * 250 ≤ 1024 * sum) && skewNear m.late f.skew

/-- The fits of the four sub-DACs. -/
def trimFits (ms : List TrimMeas) : List Fit := ms.map (trimNeed (spanSum ms))
/-- Are all four sub-DACs within Table 9-4 on these trim words? -/
def trimsNear (ms : List TrimMeas) (words : List Nat) : Bool :=
  (ms.zip words).all fun x => trimNear (spanSum ms) x.1 (trimFit x.2)

/-- The swing reference trim of step X3: the ratio, in 2^-16, that brings the span measured at codes ±63, in 2^-10 mV, to
that of Vswing at a SWING code (R96, R276). -/
def swingTrim (swing span : Nat) : Int :=
  roundDiv (2 ^ 26 * 126 * (18900 + 600 * swing)) (63 * 127 * max 1 span)

end Sys2Proof.Machine
end

