-- ==== Sys2Proof/Machine/StateLine.lean ====
section
/-!
DEFINITION. State of the line clusters, the host clusters and the table memories beside their parameter fields
(chapters 2 to 6).
-/

namespace Sys2Proof.Machine

/-- The two table memories of a line cluster (R116). -/
inductive Tbl where
  | ctx | shp
  deriving DecidableEq, Repr

/-- Sums over the samples of a slice that captures have shown (R272): samples, values, squares, and the asymmetry of the
products with the neighbouring phases. -/
structure SliceSums where
  count : Nat
  sum : Int
  square : Nat
  asym : Int
  deriving DecidableEq, Repr

/-- Sums over the observations of a context since the last build (R281): the context, observations, z′ − L, z′, and z′². -/
structure CtxSums where
  context : Nat
  count : Nat
  err : Int
  sum : Int
  square : Nat
  deriving DecidableEq, Repr

/-- What the factory recipes of a line lane keep (R278 to R282, R285). -/
structure LineRecipe where
  /-- Packet number of the capture the recipes wait for, and captures requested so far. -/
  own : Option Nat
  turn : Nat
  /-- FFE taps, 24 bits, in 2^-14 of a tap code (R280). -/
  taps : List Int
  /-- Symbols and sum of z per decided level since the last FFE set (R60). -/
  levels : List (Nat × Int)
  /-- Statistics of the contexts observed since the last context set. -/
  ctx : List CtxSums
  /-- Outer-level samples at point CORR and the sum of their magnitudes, and a CLIP, since the last AFE publish (R279). -/
  outer : Nat × Nat
  clipped : Bool
  /-- The CTLE trial in progress: CTLE_PEAK and SNR before it; whether the next window rests; the direction. -/
  trial : Option (Nat × Int)
  rest : Bool
  down : Bool
  /-- Sums of slices S0 to S65, and the measurement the words are held to; empty before the first (R272, R288). -/
  slices : List SliceSums
  meas : List SliceMeas
  /-- The conservative LLR set is owed (R282, R285). -/
  llrOwed : Bool
  /-- TICKNO of the last attempt at each publish kind. -/
  tried : List (Nat × Nat)
  deriving DecidableEq, Repr

/-- What a line receive cluster holds beside its LRX and FEC fields. -/
structure RxLane where
  /-- Phase accumulator P, units of 2^-32 UI (R66). -/
  p : BitVec 32
  /-- Frequency accumulator F (R66). -/
  f : BitVec 32
  /-- Slice correction words of S0 to S65 (R58, Table 2-3). -/
  slices : List Nat
  /-- Active LLR set, 228 words (R72). -/
  llr : List Nat
  /-- Active timing-recovery gain table: header and eight rows (R68). -/
  gain : List Nat
  /-- Tap count the active FFE set declares (R60). -/
  ffeDecl : Nat
  /-- SET_ID of the active FFE set. -/
  ffeSetId : Nat
  /-- y of the word before last and of the last word (R59). -/
  y1 : List Int
  y2 : List Int
  /-- z of the two words before the one last filtered, oldest first (R59, R62). -/
  z1 : List Int
  z2 : List Int
  /-- (MSB LLR, LSB LLR) of symbols not yet in a decoded block, oldest first (R71). -/
  llrs : List (Nat × Nat)
  /-- Symbol number, modulo 256, of the first entry of `llrs`. -/
  pos : Nat
  /-- Block offset of the locked framer (R151). -/
  offset : Nat
  /-- First of the 16 candidates the hunt tests this tick (R151). -/
  candBase : Nat
  /-- Candidates of this tick: (codewords tested, codewords with zero syndrome and even parity). -/
  cands : List (Nat × Nat)
  /-- Offsets that passed the tick before. -/
  passed : List Nat
  /-- Offsets that passed two consecutive ticks. -/
  passedTwice : List Nat
  /-- The last 30 payload and earlier bits of the PRBS31 checker, and the window (R160). -/
  prbsHist : Nat
  winBlocks : Nat
  winBad : Nat
  /-- The result of a finished window not yet judged. -/
  winDone : Option Nat
  /-- Counts of the two codewords of the last block that the next word completes (R156): codewords changed, bits
  changed, uncorrectable, zero syndrome. -/
  late : Option (Nat × Nat × Nat × Nat)
  /-- The 480 payload bits of the last block delivered, and whether they are valid (R76, R152). -/
  out : List Bool
  outValid : Bool
  /-- Sums of the tick in progress: words, clipped samples, |e|, codewords, codewords changed, bits changed,
  uncorrectable codewords, zero-syndrome codewords. -/
  words : Nat
  clips : Nat
  absE : Nat
  cw : Nat
  cwCorr : Nat
  bitsCorr : Nat
  cwUncorr : Nat
  zeroSyn : Nat
  /-- Consecutive dark ticks and lit ticks (R74). -/
  dark : Nat
  lit : Nat
  /-- Consecutive ticks in which every detector sample was low (R270). -/
  black : Nat
  /-- Consecutive ticks with TR_LOCK_METRIC above TR_LOCK_THR (R69), with fewer than 6.25 % zero syndromes (R152),
  with CLIP_CNT at or below CLIP_THR (Table 2-10), and meeting the TRACK criteria (R80). -/
  lolTicks : Nat
  lofTicks : Nat
  cleanTicks : Nat
  goodTicks : Nat
  /-- |F| has been above 100 ppm in the tick in progress, and in the ended tick (R69). -/
  overNow : Bool
  overFreq : Bool
  /-- Step of Table 2-10 in progress, 0 when none, and the TICKNO of its T. -/
  step : Nat
  bringT : Nat
  /-- TICKNO at which CAL was entered and at which light came in step 4. -/
  calT : Nat
  lightT : Nat
  /-- A relink is in progress: its trigger boundary, its code of Table 17-3 and whether it fell back (R81, R82). -/
  relinkT : Option Nat
  relinkWhy : Nat
  fellBack : Bool
  /-- The lane has reached TRACK since LANE_UP (R77). -/
  tracked : Bool
  /-- Ticks spent in the current gain-table row (R68). -/
  dwell : Nat
  /-- Causes of HOLD not yet cleared (R77). -/
  holdLos : Bool
  holdLol : Bool
  holdPll : Bool
  /-- The boundary that opened the tick in which HOLD was entered (R78). -/
  holdAt : Nat
  /-- A LANE_UP or a wake has asked for the relink of a lane in HOLD (R77). -/
  holdGo : Bool
  /-- The LOL was declared for |F|; TICKNO of the LOL. -/
  lolByFreq : Bool
  lolAt : Nat
  /-- Causes of LRX DEGRADED: context master bad, spare slices exhausted, context spare out, decoder reduced. -/
  degMaster : Bool
  degSpare : Bool
  degCtxSpare : Bool
  degDec : Bool
  /-- A background calibration runs beside traffic (R277), since this TICKNO. -/
  bgCal : Option Nat
  /-- FFE_TAPS and CTX_CLASS_CEIL as last committed (R369). -/
  nomTaps : Nat
  comCeil : Nat
  /-- A conservative FFE publish is owed (R285); adaptive context and FFE sets have swapped in since the relink. -/
  consOwed : Bool
  adCtx : Bool
  adFfe : Bool
  /-- Calibration method in progress: 0 none, 1 dark, 2 background, 3 waiting for light (R273). -/
  calMeth : Nat
  /-- Consecutive TRACK ticks with every in-service slice within Table 9-4 (R288). -/
  okTicks : Nat
  /-- (spare, in-service) evaluator pairs that have mismatched (R156). -/
  mismatches : List (Nat × Nat)
  /-- TICKNO of the last publish of CTLE_PEAK or VGA_GAIN (R53). -/
  afeAt : Option Nat
  /-- TICKNO from which the spare slices' shadow cycles count (R55). -/
  sliceCycle : Nat
  /-- TICKNO from which each spare evaluator's clean shadow cycle counts (R157). -/
  evalCycle : List (Nat × Nat)
  /-- Served entries removed under R157. -/
  removed : List Nat
  /-- The quality window in progress (R283): ticks, ticks in TRACK, ticks with CONSERVATIVE set, bits corrected and
  correctable codewords of the TRACK ticks; no valid window has ended since TRACK (R282). -/
  qTicks : Nat
  qTrack : Nat
  qCons : Nat
  qBits : Nat
  qGood : Nat
  qFirst : Bool
  recipe : LineRecipe
  deriving DecidableEq, Repr

/-- What a line transmit cluster holds beside its LTX fields. -/
structure TxLane where
  /-- Step of Table 3-9 in progress, 0 when none; T; the boundary from which step 3 counts. -/
  step : Nat
  bringT : Nat
  step3T : Nat
  /-- The analogue output gate is closed (R107). -/
  gated : Bool
  /-- The host pair has been valid since LANE_UP (Table 3-5). -/
  hadHost : Bool
  /-- The tick in progress carries fill (R102). -/
  fill : Bool
  /-- PRBS31 generator (R159). -/
  prbs : BitVec 31
  /-- Payload bits of the first word of the block being assembled (R147). -/
  half : List Bool
  /-- Level indices of encoded symbols not yet sent. -/
  coded : List Nat
  /-- Level indices of the last two words, and shaped values of the last two. -/
  v1 : List Nat
  v2 : List Nat
  s1 : List Int
  s2 : List Int
  /-- DAC codes of the last word converted (R93). -/
  dac : List Int
  /-- Saturated outputs of the tick in progress. -/
  sat : Nat
  /-- Consecutive DACTRIM evaluations within Table 9-4 (R288). -/
  okEvals : Nat
  /-- Causes of LTX DEGRADED: shaping master bad, shaping spare out. -/
  degMaster : Bool
  degShpSpare : Bool
  /-- FAILED for a lost region PLL, whose relock brings the side up again (R45, R110). -/
  pllLost : Bool
  /-- Next entry of the transmit sense ring (R275). -/
  sense : Nat
  /-- The swing reference trim, 2^-16 (R276). -/
  swingTrim : Int
  /-- The last DACTRIM opportunity, what the sense showed at it, and the publish that waits on it (R288). -/
  evalAt : Option Nat
  meas : List TrimMeas
  deriving DecidableEq, Repr

/-- How a host lane has answered its partner's last training request (R184, R185). -/
inductive TrainAnswer where
  | none | updated | atLimit
  deriving DecidableEq, Repr

/-- What a host cluster holds beside its HRX and HTX fields. -/
structure HostLaneSt where
  /-- Step of Table 6-6 in progress, 0 when none, T, and the boundary of entry to the present state. -/
  step : Nat
  bringT : Nat
  stateT : Nat
  dark : Nat
  lit : Nat
  /-- Consecutive ticks meeting R185 or R191. -/
  good : Nat
  /-- The ended tick saw phase-detector slips. -/
  slips : Bool
  /-- Causes of HOLD (R192): LOS, LOL, EBUF, PLL, CHECK timeout; LANE_UP asked for a restart. -/
  holdLos : Bool
  holdLol : Bool
  holdEbuf : Bool
  holdPll : Bool
  holdCheck : Bool
  holdGo : Bool
  /-- Retained coefficients exist (R185, R186). -/
  retained : Bool
  /-- A training has completed since LANE_UP (R192). -/
  trained : Bool
  /-- Receiver-ready of this end and of the partner (R185). -/
  ready : Bool
  partnerReady : Bool
  /-- Consecutive equaliser publishes that moved no FFE tap by more than one code (R185). -/
  quiet : Nat
  /-- The line lane has reached TRACK since this lane's LANE_UP (Table 6-4). -/
  lineSeen : Bool
  /-- Consecutive ticks free of the line-loss conditions (R194). -/
  clean : Nat
  /-- SET_ID of the active receive equaliser set. -/
  eqSetId : Nat
  /-- The quality window in progress: ticks, ticks in DATA (R283). -/
  qTicks : Nat
  qData : Nat
  /-- The frequency of the received signal in the ended tick, 0.01 ppm, which HRX.CDR_FREQ shows outside HOLD (R189). -/
  cdr : Int
  /-- Words received in the tick. -/
  words : Nat
  /-- Receive equaliser: the last 11 samples, the last decision, and the last level before precoding was removed (R182,
  R187). -/
  samples : List Int
  decided : Nat
  rxPrev : Nat
  /-- Decoder bits not yet sent, oldest first (R144). -/
  toSend : List Bool
  /-- PRBS31Q generator of a line loss, once it has started (R194). -/
  prbs : Option (BitVec 31)
  /-- Next symbol of the training pattern, and the answer the frames carry (R185). -/
  trainPos : Nat
  answer : TrainAnswer
  /-- Transmitter: the last level sent, and level values still under the FIR (R184, R187). -/
  txPrev : Nat
  txWin : List Int
  /-- The 60 FIR outputs of the last word sent, in units of 2^-6 of a level value (R184). -/
  sent : List Int
  /-- Factory equaliser recipe: the packet it waits for, whether it has one, its last attempt (R278). -/
  recOwn : Option Nat
  recGot : Bool
  recTried : Option Nat
  deriving DecidableEq, Repr

/-- What a region's host-code unit counted at one tap in the ended tick (R162): codewords, uncorrectable ones,
corrected symbols on the two line lanes of the region, codewords with k corrected symbols for k from 0 to 15. -/
structure HmCount where
  cw : Nat
  uncorr : Nat
  symA : Nat
  symB : Nat
  hist : List Nat
  deriving DecidableEq, Repr

/-- A host-code tap of a region (R161 to R165): the delay line of each host lane, oldest bit first; the place in each of
the next codeword group while the tap is aligned; and the counts of the tick. -/
structure Tap where
  lanes : List (List Bool)
  start : List Nat
  count : HmCount
  deriving DecidableEq, Repr

/-- Stamps of a table set (R124) with the rate mode it declares (none for a zero set) and its CFG_GEN. -/
structure Stamp where
  setId : Nat
  epoch : Nat
  temp : Nat
  rate : Option Nat
  deriving DecidableEq, Repr

/-- Who writes a shadow. -/
inductive Origin where
  | load | publish | refresh | repair | zero
  deriving DecidableEq, Repr

/-- A broadcast write or its verification in progress (R126). -/
structure TblWrite where
  origin : Origin
  verifying : Bool
  /-- The boundary at which the write, or the verification, ends. -/
  due : Nat
  /-- The entries being written, sparse, and their stamps. -/
  set : List (Nat × Nat)
  stamp : Stamp
  /-- A repair of the shadow that was owed when the write started, and is again if it is abandoned (R132). -/
  need : Option Nat
  deriving DecidableEq, Repr

/-- A stored word of one replica that differs from the broadcast one: XOR mask over the 26 bits (R121). Address 0x1000 + r
is spare row r of the replica's bank (R116). -/
structure Upset where
  bank : Nat
  repl : Nat
  addr : Nat
  mask : Nat
  deriving DecidableEq, Repr

/-- One table memory of one lane (R116). -/
structure TblMem where
  /-- Power of the CTXMEM or SHPMEM domain (R118). -/
  powered : Bool
  /-- The zero fill of a power-up is still running until this boundary. -/
  fillDue : Option Nat
  /-- Entries of bank 0 and bank 1, sparse over 0x0000. -/
  bank0 : List (Nat × Nat)
  bank1 : List (Nat × Nat)
  upsets : List Upset
  /-- Poisoned entries: bank, replica, address (R131). -/
  poison : List (Nat × Nat × Nat)
  /-- Spare rows in use: bank, replica, row, the 26 stored bits (R116). -/
  spares : List (Nat × Nat × Nat × Nat)
  /-- Remap words whose redirect is not yet active, with the boundary at which it becomes so (R136). -/
  newRemaps : List (Nat × Nat)
  active : Stamp
  shadow : Stamp
  /-- Master-copy addresses of which no good value is found (R133). -/
  masterBad : List Nat
  /-- End of the open update window of R123. -/
  window : Option Nat
  write : Option TblWrite
  /-- A refresh or a zero set armed for the next boundary. -/
  armed : Option Origin
  /-- TICKNO at which a repair of the active, or of the shadow, bank came to be owed (R132). -/
  needActive : Option Nat
  needShadow : Option Nat
  /-- Boundary from which the armed refresh or zero set may swap (Table 4-5). -/
  armedDue : Nat
  /-- Address of the next scrub read (R131), and whether a first sweep since power-up is still owed (R120). -/
  scrub : Nat
  /-- Replicas whose health bit came back and that wait to be rewritten and admitted (R139). -/
  returning : List Nat
  /-- Those of them whose banks are rewritten and verified. -/
  prepared : List Nat
  /-- Replicas to be retired as soon as a spare is ready (R138). -/
  wanted : List Nat
  deriving DecidableEq, Repr

/-- The correction tracker beside CTX.TRACK: addresses that have reported a correction in this tick (R134); per entry,
the start of its WATCH (R135); and addresses whose remap waits for an open update window (R123). -/
structure TrackTimes where
  seen : List Nat
  watch : List (Option Nat)
  owed : List Nat
  deriving DecidableEq, Repr

/-- Zero stamp: factory content, not temperature-specific. -/
def Stamp.zero : Stamp := ⟨0, 0, 0x8000, none⟩

/-- A table memory at reset: off, every entry 0x0000 (R118). -/
def TblMem.reset : TblMem :=
  { powered := false, fillDue := none, bank0 := [], bank1 := [], upsets := [], poison := [], spares := [],
    newRemaps := [], active := .zero, shadow := .zero, masterBad := [],
    window := none, write := none, armed := none, needActive := none, needShadow := none, armedDue := 0,
    scrub := 0, returning := [], prepared := [], wanted := [] }

/-- The factory LLR set (R72). -/
def factoryLlr : List Nat :=
  [0xFF00, 0, 256, 0] ++
    (List.range 16).flatMap fun c => (List.range 2).flatMap fun _ => (List.range 7).map fun j => 512 * (j + 1) / (16 + c)

/-- One gain-table row word (Table 2-6). -/
def gainRow (kp ki freeze dwell : Nat) : Nat := kp * 2 ^ 27 + ki * 2 ^ 22 + freeze * 2 ^ 21 + dwell

/-- The factory gain table (Table 2-7). -/
def factoryGain : List Nat :=
  [2, gainRow 6 14 0 512, gainRow 7 16 0 1024, gainRow 8 18 0 1024, gainRow 9 20 0 2048, gainRow 10 22 0 2048,
    gainRow 10 24 0 0, gainRow 31 31 1 0, gainRow 31 31 1 0]

/-- A slice correction word of offset 0, gain 0x200, skew 0 (R58). -/
def factorySlice : Nat := 0x200 * 2 ^ 14

/-- The recipes of a line lane at reset. -/
def LineRecipe.reset : LineRecipe :=
  { own := none, turn := 0, taps := List.replicate 33 0, levels := List.replicate 4 (0, 0), ctx := [], outer := (0, 0), clipped := false
    trial := none, rest := false, down := false, slices := List.replicate 66 ⟨0, 0, 0, 0⟩, meas := [], llrOwed := false, tried := [] }

/-- The receive side of a line cluster at reset (log 5). -/
def RxLane.reset : RxLane :=
  { p := 0, f := 0, slices := List.replicate 66 factorySlice, llr := factoryLlr, gain := factoryGain, ffeDecl := 33,
    ffeSetId := 0, y1 := List.replicate 128 0, y2 := List.replicate 128 0, z1 := List.replicate 128 0,
    z2 := List.replicate 128 0, llrs := [], pos := 0, offset := 0, candBase := 0, cands := [],
    passed := [], passedTwice := [], prbsHist := 0, winBlocks := 0, winBad := 0, winDone := none, late := none, out := [],
    outValid := false, words := 0, clips := 0, absE := 0, cw := 0, cwCorr := 0, bitsCorr := 0, cwUncorr := 0,
    zeroSyn := 0, dark := 0, lit := 0, black := 0, lolTicks := 0, lofTicks := 0, cleanTicks := 0, goodTicks := 0,
    overNow := false, overFreq := false, step := 0, bringT := 0, calT := 0, lightT := 0, relinkT := none, relinkWhy := 0,
    fellBack := false, tracked := false, dwell := 0, holdLos := false, holdLol := false, holdPll := false,
    holdAt := 0, holdGo := false, lolByFreq := false, lolAt := 0, degMaster := false, degSpare := false, degCtxSpare := false,
    degDec := false, bgCal := none, nomTaps := 33, comCeil := 16, consOwed := false, adCtx := false,
    adFfe := false, calMeth := 0, okTicks := 0, mismatches := [], afeAt := none, sliceCycle := 0, evalCycle := [], removed := [],
    qTicks := 0, qTrack := 0, qCons := 0, qBits := 0, qGood := 0, qFirst := true, recipe := .reset }

/-- The transmit side of a line cluster at reset (log 5). -/
def TxLane.reset : TxLane :=
  { step := 0, bringT := 0, step3T := 0, gated := false, hadHost := false, fill := false, prbs := 0, half := [],
    coded := [], v1 := [], v2 := [], s1 := [], s2 := [], dac := [], sat := 0, okEvals := 0, degMaster := false,
    degShpSpare := false, pllLost := false, sense := 0, swingTrim := 2 ^ 16, evalAt := none, meas := [] }

/-- A host cluster at reset (log 5). -/
def HostLaneSt.reset : HostLaneSt :=
  { step := 0, bringT := 0, stateT := 0, dark := 0, lit := 0, good := 0, slips := false, holdLos := false,
    holdLol := false, holdEbuf := false, holdPll := false, holdCheck := false, holdGo := false, retained := false, trained := false,
    ready := false, partnerReady := false, quiet := 0, lineSeen := false, clean := 0, eqSetId := 0, qTicks := 0, qData := 0,
    cdr := 0, words := 0, samples := List.replicate 11 0, decided := 0, rxPrev := 0, toSend := [], prbs := none, trainPos := 0,
    answer := .none, txPrev := 0, txWin := List.replicate 5 0, sent := [],
    recOwn := none, recGot := false, recTried := none }

/-- No codeword counted. -/
def HmCount.zero : HmCount := ⟨0, 0, 0, 0, []⟩
/-- A host-code tap at reset. -/
def Tap.reset : Tap := { lanes := [[], [], [], []], start := [], count := .zero }

end Sys2Proof.Machine
end

