-- ==== Sys2Proof/Machine/StatePort.lean ====
section
/-!
DEFINITION. State of power transitions, reset and boot, images in flash, the self-test, the test port and the Tenon link
(chapters 14 to 16).
-/

namespace Sys2Proof.Machine

/-! ### Power and reset -/

/-- A SLEEP whose final OK is queued and whose entry has not begun (R311): state, wake-source mask, SELFTEST, and the
TICKNO 1 ms after the reply was queued. -/
structure SleepReq where
  state : Nat
  mask : Nat
  selfTest : Bool
  latest : Nat
  ref : ReqRef
  deriving DecidableEq, Repr

/-- Transitions of the power state, reset and controller restarts. -/
structure Power where
  sleep : Option SleepReq
  /-- Step of Table 14-6 in progress, 0 none; the state being entered; the wake-source mask; SELFTEST. -/
  entry : Nat
  entryTo : Nat
  mask : Nat
  selfTest : Bool
  /-- Step of Table 14-7 in progress, 0 none, or of Table 15-3; retries used; a retry waits for WAKE_RETRY_MS. -/
  wake : Nat
  cold : Nat
  tries : Nat
  waiting : Bool
  /-- WAKE requests to be answered when the wake ends. -/
  refs : List ReqRef
  /-- A wake source recognised while an entry runs (Table 14-9). -/
  early : Bool
  /-- The cold start follows a wake from DIAPAUSE: (AON) fields are kept (R392). -/
  fromSleep : Bool
  /-- The reset has been recognised as warm and is held; it has escalated (Table 15-1). -/
  warm : Bool
  escalated : Bool
  /-- Domains are off after a loss of PG_ANA or PG_CORE, until every power-good input returns (R399). -/
  supplyOff : Bool
  /-- The controller restarts, after the watchdog or, where true, after a warm reset whose lanes it brings up. -/
  restart : Option Bool
  /-- TICKNO of watchdog restarts of the last 60 s; TICKNO since which the firmware serves without a restart. -/
  wdt : List Nat
  serveT : Nat
  /-- SHUTDOWN accepted: its target, SELFTEST, its request. -/
  shutdown : Option (Nat × Bool × ReqRef)
  deriving DecidableEq, Repr

/-- A shutdown self-test (R429): next slice of Table 15-12 and the SHUTDOWN it answers; none before DIAPAUSE. -/
structure SelfTest where
  slice : Nat
  ref : Option ReqRef
  deriving DecidableEq, Repr

/-! ### Images -/

/-- One IMAGE_WRITE segment being erased, programmed and read back (R417). -/
structure ImgSeg where
  ref : ReqRef
  first : Bool
  last : Bool
  offset : Nat
  data : List Byte
  deriving DecidableEq, Repr

/-- An image write (R313): image type, copy, next segment and offset, segment in progress. -/
structure ImgWrite where
  image : Nat
  copy : Nat
  next : Nat
  offset : Nat
  seg : Option ImgSeg
  deriving DecidableEq, Repr

/-- A RECIPE_LOAD (R313): source, domain, next segment, bytes, and the request being verified. -/
structure RecipeLoad where
  source : Nat
  domain : Nat
  next : Nat
  bytes : List Byte
  ref : Option ReqRef
  deriving DecidableEq, Repr

/-- A hitless activation (R422): the request, the copy to start, the copy that runs, the boundary Q once reached. -/
structure Activation where
  ref : ReqRef
  copy : Nat
  old : Nat
  q : Option Nat
  deriving DecidableEq, Repr

/-- Flash and images. -/
structure Images where
  /-- Flash contents, sparse over 0xFF (Table 15-5). -/
  flash : List (Nat × Nat)
  write : Option ImgWrite
  recipe : Option RecipeLoad
  act : Option Activation
  /-- A firmware copy activated within the last 10 s, and the copy before it (R423). -/
  trial : Option (Nat × Nat)
  /-- An IDENTIFY being signed: its request and the bytes to be signed (R431). -/
  sign : List (ReqRef × List Byte)
  /-- VERSION, SVN and LOCK_SVN of the running firmware. -/
  version : Nat
  svn : Nat
  lockSvn : Bool
  /-- Automatic lane masks of the configuration in force (Table 15-7). -/
  autoLine : Nat
  autoHost : Nat
  /-- Key hashes fused in owner slots 1 to 3 (R430). -/
  keys : List (BitVec 384)
  deriving DecidableEq, Repr

/-- The test port (R432): the instruction selected, the data register it puts between TDI and TDO, boundary-register
preload, CLEARED. -/
structure Jtag where
  inst : Nat
  dr : Nat
  preload : Nat
  drive : Bool
  cleared : Bool
  deriving DecidableEq, Repr

/-! ### Tenon -/

/-- A message (R442): destination, source, kind of Table 16-3, bytes. -/
structure TenMsg where
  dst : Nat
  src : Nat
  kind : Nat
  bytes : List Byte
  deriving DecidableEq, Repr

/-- A Tenon port: step of Table 16-4 in progress (0 none), waiting out the 10 ms of R443, control blocks and messages
sent, oldest first, and the address WAKE blocks are being sent to (R462). -/
structure TenPort where
  step : Nat
  waiting : Bool
  blocks : List (List Byte)
  msgs : List TenMsg
  waking : Option Nat
  deriving DecidableEq, Repr

/-- A forwarded request (R455): the ridge's reference, rafter, TICKNO of sending, first reply seen, a WAKE to a
sleeping rafter. -/
structure Fwd where
  ref : ReqRef
  addr : Nat
  sent : Nat
  replied : Bool
  wake : Bool
  deriving DecidableEq, Repr

/-- The Tenon link. -/
structure Ten where
  ports : List TenPort
  /-- Sequence of the next PROBE, the one outstanding, and the last 256 samples (round trip, delay) (R446). -/
  probe : Nat
  probing : Option Nat
  samples : List (Int × Int)
  /-- TICKNO and die 0 rate mode that a TIME block gave for the next TICK (R450). -/
  time : Option (Nat × Nat)
  /-- TICKNO at the last TICK (R451). -/
  lastTick : Nat
  /-- TICKNO has been loaded from the chain (R451). -/
  loaded : Bool
  /-- A load for the next boundary (R8, R28): the ridge's number of the present tick, and whether it resynchronises. -/
  load : Option (Nat × Bool)
  /-- Correction of the next tick in core cycles (R448); a rejoin by slewing is under way (R452). -/
  adj : Int
  slewing : Bool
  /-- A rejoin must resynchronise (R28, R452); lanes taken down for it: line and host masks. -/
  owed : Bool
  resync : Option (Nat × Nat)
  /-- Lanes that wait for the join (R453): line and host masks, and the relink of a wake. -/
  join : Option (Nat × Nat × Bool)
  fwd : List Fwd
  /-- TICKNO of the last record of each rafter (R460). -/
  telem : List (Nat × Nat)
  /-- Power states of SLEEP_NOTE by rafter (R456, R461). -/
  sleeping : List (Nat × Nat)
  /-- TICKNO at the last TICK_SYNC edge (R454). -/
  lastEdge : Nat
  /-- Images wanted over the link, their pieces by type, streams that failed (R458). -/
  wanted : Nat
  pieces : List (Nat × List (Nat × Nat))
  failed : Nat
  deriving DecidableEq, Repr

def Power.reset : Power :=
  { sleep := none, entry := 0, entryTo := 0, mask := 0, selfTest := false, wake := 0, cold := 0, tries := 0,
    waiting := false, refs := [], early := false, fromSleep := false, warm := false, escalated := false,
    supplyOff := false, restart := none, wdt := [], serveT := 0, shutdown := none }

def Images.reset : Images :=
  { flash := [], write := none, recipe := none, act := none, trial := none, sign := [], version := 0, svn := 0, lockSvn := false,
    autoLine := 0, autoHost := 0, keys := [0, 0, 0] }

def Jtag.reset : Jtag := ⟨0, 0, 0, false, false⟩

def TenPort.reset : TenPort := ⟨0, false, [], [], none⟩

def Ten.reset : Ten :=
  { ports := [.reset, .reset], probe := 0, probing := none, samples := [], time := none, lastTick := 0, loaded := false, load := none,
    adj := 0, slewing := false, sleeping := [], lastEdge := 0, owed := false, resync := none, join := none, fwd := [], telem := [], wanted := 0, pieces := [], failed := 0 }

end Sys2Proof.Machine
end

