-- ==== Sys2Proof/Machine/StateSys.lean ====
section
/-!
DEFINITION. State of the housekeeping converters, the bias outputs, thermal management, power, reset, boot, flash,
fuses, the test port and the Tenon ports (chapters 9 and 12 to 16).
-/

namespace Sys2Proof.Machine

/-- A region PLL (R45): locked, lock attempts failed since the loss, and whether a relock is in progress or waits. -/
structure Pll where
  locked : Bool
  /-- Lock was lost and not regained: the clusters of the region wait for the relock. -/
  lost : Bool
  tries : Nat
  relocking : Bool
  waiting : Bool
  /-- The retries are exhausted, and no lock has come since; every cluster of the region has gone down since then. -/
  failed : Bool
  retry : Bool
  deriving DecidableEq, Repr

/-- One second-order section (R346): x[n−1], x[n−2], y[n−1], y[n−2]. -/
structure Section2 where
  x1 : Int
  x2 : Int
  y1 : Int
  y2 : Int
  deriving DecidableEq, Repr

/-- A filter channel: its sections, inputs since the restart, and whether it still waits for its first input (R346,
R347). -/
structure FiltSt where
  s1 : Section2
  s2 : Section2
  count : Nat
  fresh : Bool
  deriving DecidableEq, Repr

/-- A comparator (R348): consecutive values meeting the condition; armed. -/
structure WinSt where
  run : Nat
  armed : Bool
  deriving DecidableEq, Repr

/-- A result ring (R344): entries written since it was configured, and the mark, both uncut. -/
structure RingSt where
  tot : Nat
  mark : Nat
  deriving DecidableEq, Repr

/-- A SYSCAL_POINT step in progress (R351): step, input, declared value, conversions, their sum and sum of squares. -/
structure CalRun where
  step : Nat
  input : Nat
  declared : Nat
  count : Nat
  sum : Nat
  sumSq : Nat
  deriving DecidableEq, Repr

/-- The housekeeping converter (chapter 12). -/
structure Hk where
  /-- A pass starts in the next free slot; one more trigger waits behind it or behind a running pass (R340). -/
  start : Bool
  latched : Bool
  /-- Next step of the running pass. -/
  pass : Option Nat
  /-- Step words, length, calibration offsets and gains of the running pass (R342, R350). -/
  steps : List Nat
  ofs : List Nat
  gain : List Nat
  /-- Calibration conversions still allowed before the waiting pass (R352). -/
  quota : Nat
  filts : List FiltSt
  wins : List WinSt
  rings : List RingSt
  /-- Ring memory, sparse over 0xFFFF_FFFF (R343). -/
  mem : List (Nat × Nat)
  cal : Option CalRun
  /-- Input and points held (R351): zero mean; full-scale mean and declared value. -/
  calInput : Nat
  zero : Option Nat
  full : Option (Nat × Nat)
  /-- A new value of a step or filter source since the loops last ran (R359), with the latest value: steps at 0 to 63,
  filters at 64 to 71. -/
  fresh : List Nat
  /-- TICKNO of the last tick trigger since the sequencer's trigger was configured (R340). -/
  tickTrig : Option Nat
  deriving DecidableEq, Repr

/-- Phase of a span change (R356). -/
inductive SpanPhase where
  | down | wait | up
  deriving DecidableEq, Repr

/-- A bias output (R355 to R359): its span change, the slew settings of phase 1, and the loop accumulator (none: to be
seeded). -/
structure Bias where
  phase : Option SpanPhase
  step : Nat
  div : Nat
  acc : Option Int
  deriving DecidableEq, Repr

/-- A reference trim: the value in force, and a corrected one with the boundary from which it holds; the housekeeping
converter's has no boundary and waits for the next pass (R377). -/
structure RefTrim where
  now : Int
  next : Option (Int × Option Nat)
  deriving DecidableEq, Repr

/-- Thermal management (chapter 13). -/
structure Therm where
  /-- Consecutive samples in which a sensor differed from its die's median (R366). -/
  off : List Nat
  /-- (TICKNO, temperature) of a region's samples of the last second (R371). -/
  past : List (List (Nat × Int))
  /-- Warning of each region. -/
  warn : List Bool
  /-- Target level and the boundary from which a step may be taken, per region (R370). -/
  step : List (Option (Nat × Nat))
  lastStep : List (Option Nat)
  /-- The clusters go DOWN at the next boundary (R374). -/
  lanesDown : Bool
  /-- The last reading of S7 by the always-on island, 0.25 °C (R376), and its shutdown. -/
  s7 : Int
  aonShut : Bool
  /-- Trims of the references, in steps since REFCAL: housekeeping gain and zero, CALSRC_L0 to L7, the transmit sense
  references of L0 to L7, the bandgap (R377). -/
  trims : List RefTrim
  /-- Dies sampled since the thermal domain was powered (R376). -/
  sampled : List Nat
  deriving DecidableEq, Repr

/-- Levels of input pins and power-good inputs (R397 to R404, R436, R497, Table 18-6), the straps as sampled, and whether
the device asserts the open-drain outputs IRQ_N and FAULT_N (R482, R483). -/
structure Pins where
  pgCore : Bool
  pgAna : Bool
  pgHv : Bool
  vaonMain : Bool
  vaonBkup : Bool
  wakeN : Bool
  resetN : Bool
  testMode : Bool
  irq : Bool
  fault : Bool
  role : Nat
  bootSrc : Nat
  deriving DecidableEq, Repr

/-- A REFCAL in progress (R267): REF_STATE shows the result of steps 1 and 2; the CALIBRATE it answers. -/
structure Refcal where
  judged : Bool
  ref : Option ReqRef
  deriving DecidableEq, Repr

structure Sys where
  bridgeLost : Bool
  /-- MC_STATE of status block byte 9. -/
  mcState : Nat
  /-- The boot ROM's recovery service answers (R420). -/
  recovery : Bool
  /-- Level of TX_DIS. -/
  txDis : Bool
  /-- A thermal shutdown persists (R374). -/
  thermShut : Bool
  /-- Line and host PLL of region r at 2r and 2r + 1. -/
  plls : List Pll
  /-- The lanes are idled for a sleep state, or held by a warm reset (R385, R424): no lane leaves HOLD. -/
  lanesIdle : Bool
  /-- Power domains whose reset has not been released yet (R44, R383). -/
  resetting : List Nat
  /-- Active recipe bundle (R289). -/
  bundle : Bundle
  hk : Hk
  bias : List Bias
  therm : Therm
  pins : Pins
  /-- The latest AVS read-back agrees (R395, R483). -/
  avsOk : Bool
  /-- RESYNC_GO has been written: a held resynchronisation goes ahead at the next boundary (R452). -/
  resyncGo : Bool
  refcal : Option Refcal
  /-- Quality windows that have ended since cold reset (R283). -/
  windows : Nat
  power : Power
  selfTest : Option SelfTest
  images : Images
  jtag : Jtag
  ten : Ten
  deriving DecidableEq, Repr

def Pll.reset : Pll := ⟨false, false, 0, false, false, false, false⟩

def FiltSt.reset : FiltSt := ⟨⟨0, 0, 0, 0⟩, ⟨0, 0, 0, 0⟩, 0, true⟩
def WinSt.reset : WinSt := ⟨0, true⟩
def RingSt.reset : RingSt := ⟨0, 0⟩
def Bias.reset : Bias := ⟨none, 1, 0, none⟩
def Hk.reset : Hk :=
  { start := false, latched := false, pass := none, steps := [], ofs := [], gain := [], quota := 0, filts := List.replicate 8 .reset,
    wins := List.replicate 16 .reset, rings := List.replicate 8 .reset, mem := [], cal := none, calInput := 0,
    zero := none, full := none, fresh := [], tickTrig := none }

def Therm.reset : Therm :=
  { off := List.replicate 16 0, past := List.replicate 4 [], warn := List.replicate 4 false,
    step := List.replicate 4 none, lastStep := List.replicate 4 none, lanesDown := false, s7 := 0, aonShut := false,
    trims := List.replicate 19 ⟨0, none⟩, sampled := [] }

def Sys.reset : Sys :=
  { bridgeLost := false, mcState := 0, recovery := false, txDis := true, thermShut := false,
    plls := List.replicate 8 .reset, lanesIdle := false, resetting := [], bundle := ⟨0, []⟩,
    hk := .reset, bias := List.replicate 24 .reset, therm := .reset,
    pins := ⟨false, false, false, false, false, true, true, false, false, false, 0, 0⟩, avsOk := true, resyncGo := false, refcal := none,
    windows := 0, power := .reset, selfTest := none, images := .reset, jtag := .reset, ten := .reset }

end Sys2Proof.Machine
end

