-- ==== Sys2Proof/Syntax.lean ====
section
/-!
DEFINITION. The commands of opcode_table.json, with the operands the manual gives each step: which lane, die, port or
request it concerns, and what the environment supplies (samples, measurements, packet bytes). No row carries bits.
-/

namespace Sys2Proof

open Machine

/-- The commands: one constructor per row of opcode_table.json, in its order. -/
inductive Instr where
  /-- TICK_BOUNDARY (R29). -/
  | tickBoundary (f : TickFacts)
  /-- AON_TICK_ADVANCE (R9). -/
  | aonTickAdvance
  /-- LINE_RX_WORD (R26). -/
  | lineRxWord (n : Lane) (codes spare : List (BitVec 7)) (ups : List Upset) (capBad : List Nat)
  /-- LINE_TX_WORD (R87). -/
  | lineTxWord (n : Lane) (h0 h1 : List (BitVec 10)) (ups : List Upset)
  /-- PACKET_WRITE (R294). -/
  | packetWrite (via : Via) (bytes : List Byte)
  /-- REPLY_READ (R295). -/
  | replyRead (via : Via) (whole : Bool)
  /-- STATUS_BLOCK_READ (R319). -/
  | statusBlockRead (via : Via) (ptr : BitVec 6) (count : Nat)
  /-- I2C_SCL_TIMEOUT (R501). -/
  | i2cSclTimeout
  /-- PROGRESS_UPDATE (R302). -/
  | progressUpdate (via : Via) (tag : Byte) (phase percent elapsed remaining : Nat)
  /-- IDENTIFY (R304). -/
  | identify (r : Request)
  /-- STATUS (R304). -/
  | status (r : Request)
  /-- STAGE_WRITE (R305). -/
  | stageWrite (r : Request)
  /-- STAGE_READ (R306). -/
  | stageRead (r : Request)
  /-- LIVE_WRITE (R305). -/
  | liveWrite (r : Request)
  /-- READ (R306). -/
  | read (r : Request)
  /-- COMMIT (R31). -/
  | commit (r : Request)
  /-- DISCARD (R309). -/
  | discard (r : Request)
  /-- LANE_UP (R310). -/
  | laneUp (r : Request)
  /-- LANE_DOWN (R310). -/
  | laneDown (r : Request)
  /-- CALIBRATE (R277). -/
  | calibrate (r : Request)
  /-- SYSCAL_POINT (R351). -/
  | syscalPoint (r : Request)
  /-- SLEEP (R311). -/
  | sleep (r : Request)
  /-- WAKE (R303). -/
  | wake (r : Request)
  /-- TABLE_LOAD (R308). -/
  | tableLoad (r : Request)
  /-- TABLE_READ (R304). -/
  | tableRead (r : Request)
  /-- RECIPE_LOAD (R313). -/
  | recipeLoad (r : Request)
  /-- CAPTURE_ARM (R470). -/
  | captureArm (r : Request)
  /-- CAPTURE_READ (R474). -/
  | captureRead (r : Request)
  /-- IMAGE_WRITE (R417). -/
  | imageWrite (r : Request)
  /-- IMAGE_ACTIVATE (R422). -/
  | imageActivate (r : Request)
  /-- SHUTDOWN (R312). -/
  | shutdown (r : Request)
  /-- RETIRE_UNIT (R310). -/
  | retireUnit (r : Request)
  /-- LOG_READ (R481). -/
  | logRead (r : Request)
  /-- SNAPSHOT (R467). -/
  | snapshot (r : Request)
  /-- LTX_SQUELCH_WRITE (R106). -/
  | ltxSquelchWrite (via : Via) (tag : Byte) (inst : BitVec 8) (value : BitVec 64)
  /-- HTX_SQUELCH_WRITE (R195). -/
  | htxSquelchWrite (via : Via) (tag : Byte) (inst : BitVec 8) (value : BitVec 64)
  /-- SEQ_GO (R340). -/
  | seqGo (via : Via) (tag : Byte) (value : BitVec 64)
  /-- RING_MARK_SET (R345). -/
  | ringMarkSet (via : Via) (tag : Byte) (value : BitVec 64)
  /-- WIN_CLR (R349). -/
  | winClr (via : Via) (tag : Byte) (value : BitVec 64)
  /-- BIAS_RELEASE (R357). -/
  | biasRelease (via : Via) (tag : Byte) (value : BitVec 64)
  /-- SC_CLR (R358). -/
  | scClr (via : Via) (tag : Byte) (value : BitVec 64)
  /-- BIAS_CODE_WRITE (R355). -/
  | biasCodeWrite (via : Via) (tag : Byte) (c : Chan) (value : BitVec 64)
  /-- LOOP_TARGET_WRITE (R364). -/
  | loopTargetWrite (via : Via) (tag : Byte) (c : Chan) (value : BitVec 64)
  /-- CAUSE_CLR (R405). -/
  | causeClr (via : Via) (tag : Byte) (value : BitVec 64)
  /-- RESYNC_GO (R452). -/
  | resyncGo (via : Via) (tag : Byte) (p : Port) (value : BitVec 64)
  /-- ALARM_CLR (R460). -/
  | alarmClr (via : Via) (tag : Byte) (value : BitVec 64)
  /-- CAP_MARK_SET (R473). -/
  | capMarkSet (via : Via) (tag : Byte) (value : BitVec 64)
  /-- HIST_GO (R476). -/
  | histGo (via : Via) (tag : Byte) (value : BitVec 64)
  /-- IRQ_CLR (R482). -/
  | irqClr (via : Via) (tag : Byte) (value : BitVec 64)
  /-- LANE_CHG_CLR (R482). -/
  | laneChgClr (via : Via) (tag : Byte) (value : BitVec 64)
  /-- FAULT_CLR (R483). -/
  | faultClr (via : Via) (tag : Byte) (value : BitVec 64)
  /-- LIVE_WRITE_EFFECT (R19). -/
  | liveWriteEffect
  /-- COMMIT_ARM (R31). -/
  | commitArm (d : Die) (ready1 : Bool)
  /-- COMMIT_SWAP (R31). -/
  | commitSwap (d : Die)
  /-- LANE_UP_EFFECT (R79). -/
  | laneUpEffect
  /-- LANE_DOWN_EFFECT (R110). -/
  | laneDownEffect
  /-- UNIT_COMMIT_ARM (R137). -/
  | unitCommitArm
  /-- UNIT_COMMIT_SWAP (R137). -/
  | unitCommitSwap
  /-- DOMAIN_RESET_RELEASE (R44). -/
  | domainResetRelease (dom : Fin 96)
  /-- DOMAIN_LOCK_TIMEOUT (R44). -/
  | domainLockTimeout (dom : Fin 96)
  /-- DOMAIN_SUPPLY_TIMEOUT (R383). -/
  | domainSupplyTimeout (dom : Fin 96)
  /-- REGION_PLL_LOCK_LOSS (R45). -/
  | regionPllLockLoss (r : Region) (host : Bool)
  /-- REGION_PLL_RELOCK (R45). -/
  | regionPllRelock (r : Region) (host : Bool)
  /-- RELOCK_TIMEOUT (R45). -/
  | relockTimeout (r : Region) (host : Bool)
  /-- RELOCK_RETRY (R45). -/
  | relockRetry (r : Region) (host : Bool)
  /-- BRIDGE_LOSS (R43). -/
  | bridgeLoss
  /-- BRIDGE_RECOVERY (R43). -/
  | bridgeRecovery
  /-- LOS_DECLARE (R74). -/
  | losDeclare (n : Lane)
  /-- LOS_CLEAR (R74). -/
  | losClear (n : Lane)
  /-- LOL_DECLARE (R69). -/
  | lolDeclare (n : Lane)
  /-- RELINK_FALLBACK (R82). -/
  | relinkFallback (n : Lane)
  /-- RELINK_FAIL_TIMEOUT (R82). -/
  | relinkFailTimeout (n : Lane)
  /-- TR_ROW_ADVANCE (R68). -/
  | trRowAdvance (n : Lane)
  /-- TRACK_ENTRY (R80). -/
  | trackEntry (n : Lane)
  /-- DARK_CHECK_DONE (R270). -/
  | darkCheckDone (n : Lane) (pd : BitVec 12)
  /-- RX_CAL_COMPLETE (R273). -/
  | rxCalComplete (n : Lane) (first again : List SliceMeas) (lit : Bool)
  /-- RX_CAL_TIMEOUT (R273). -/
  | rxCalTimeout (n : Lane) (found : List SliceMeas)
  /-- COARSE_GAIN_DONE (R79). -/
  | coarseGainDone (n : Lane)
  /-- COARSE_GAIN_TIMEOUT (R79). -/
  | coarseGainTimeout (n : Lane)
  /-- RX_BRINGUP_TIMEOUT (R79). -/
  | rxBringupTimeout (n : Lane)
  /-- BG_CALIBRATE_TIMEOUT (R277). -/
  | bgCalibrateTimeout (n : Lane)
  /-- TX_CAL_COMPLETE (R276). -/
  | txCalComplete (n : Lane) (first again : List TrimMeas) (span : Nat)
  /-- TX_CAL_TIMEOUT (R111). -/
  | txCalTimeout (n : Lane) (found : List TrimMeas)
  /-- TX_OUTPUT_ENABLE (R111). -/
  | txOutputEnable (n : Lane)
  /-- TX_DIS_ASSERT (R107). -/
  | txDisAssert
  /-- TX_DIS_DEASSERT (R107). -/
  | txDisDeassert
  /-- SHADOW_WRITE_COMPLETE (R126). -/
  | shadowWriteComplete (kind inst : Nat)
  /-- SHADOW_VERIFY_COMPLETE (R127). -/
  | shadowVerifyComplete (kind inst : Nat) (ups again : List Upset)
  /-- TABLE_LOAD_WRITE_START (R128). -/
  | tableLoadWriteStart (n : Lane) (t : Tbl)
  /-- TABLE_DOMAIN_FILL_COMPLETE (R118). -/
  | tableDomainFillComplete (n : Lane) (t : Tbl)
  /-- SCRUB_READ (R131). -/
  | scrubRead (n : Lane) (t : Tbl) (ups : List Upset)
  /-- REFRESH_START (R132). -/
  | refreshStart (n : Lane) (t : Tbl)
  /-- SHADOW_REPAIR_START (R132). -/
  | shadowRepairStart (n : Lane) (t : Tbl)
  /-- REFRESH_SWAP (R130). -/
  | refreshSwap (n : Lane) (t : Tbl)
  /-- REMAP_ACTIVATION (R136). -/
  | remapActivation (n : Lane)
  /-- TRACKER_WATCH_EXPIRY (R135). -/
  | trackerWatchExpiry (n : Lane) (k : Fin 16)
  /-- MASTER_COPY_UPDATE (R123). -/
  | masterCopyUpdate (kind : Fin 8) (tgt : Chan)
  /-- MASTER_COPY_CHECK_FAIL (R133). -/
  | masterCopyCheckFail (n : Lane) (t : Tbl) (addr : BitVec 12)
  /-- ZERO_SET_SWAP (R285). -/
  | zeroSetSwap (n : Lane) (t : Tbl)
  /-- FRAME_LOCK (R151). -/
  | frameLock (n : Lane)
  /-- LOF_DECLARE (R152). -/
  | lofDeclare (n : Lane)
  /-- FILL_WINDOW_END (R160). -/
  | fillWindowEnd (n : Lane)
  /-- HOST_TAP_ALIGN (R163). -/
  | hostTapAlign (r : Region) (found : TapFind)
  /-- HOST_TAP_ALIGN_LOSS (R163). -/
  | hostTapAlignLoss (r : Region) (out : Bool)
  /-- EBUF_EXCURSION (R190). -/
  | ebufExcursion (k : HostLane)
  /-- HOST_LOS_DECLARE (R188). -/
  | hostLosDeclare (k : HostLane)
  /-- HOST_LOS_CLEAR (R188). -/
  | hostLosClear (k : HostLane)
  /-- HOST_LOL_DECLARE (R189). -/
  | hostLolDeclare (k : HostLane)
  /-- TRAINING_REQUEST (R185). -/
  | trainingRequest (k : HostLane) (req : TrainReq)
  /-- HOST_RX_READY (R185). -/
  | hostRxReady (k : HostLane)
  /-- TRAINING_END (R185). -/
  | trainingEnd (k : HostLane)
  /-- TRAINING_TIMEOUT (R185). -/
  | trainingTimeout (k : HostLane)
  /-- HOST_DATA_ENTRY (R191). -/
  | hostDataEntry (k : HostLane)
  /-- CHECK_TIMEOUT (R192). -/
  | checkTimeout (k : HostLane)
  /-- CHECK_HOLD_EXPIRY (R192). -/
  | checkHoldExpiry (k : HostLane)
  /-- LINE_LOSS_END (R194). -/
  | lineLossEnd (n : Lane)
  /-- SLOT_START (R210). -/
  | slotStart (d : Die) (k : Fin 32)
  /-- SLOT_CUTOFF (R212). -/
  | slotCutoff (d : Die)
  /-- INTERRUPT_TAKEN (R261). -/
  | interruptTaken (d : Die) (mailbox : Bool)
  /-- CAPTURE_FILL_START (R216). -/
  | captureFillStart (c : Chan)
  /-- CAPTURE_PACKET_END (R218). -/
  | capturePacketEnd (c : Chan) (flips : List (BitVec 128))
  /-- PUBLISH_ARM (R129). -/
  | publishArm (kind : Fin 8) (tgt : Chan)
  /-- PUBLISH_SWAP (R222). -/
  | publishSwap (kind : Fin 8) (tgt : Chan)
  /-- JOINER_FAULT (R229). -/
  | joinerFault (d : Die) (cause : JoinerCause)
  /-- JOINER_RESTART_COMPLETE (R229). -/
  | joinerRestartComplete (d : Die) (dmLost : Bool)
  /-- NOP (R247). -/
  | nop (d : Die) (y : Bool)
  /-- VADD (R247). -/
  | vadd (d : Die) (pred : BitVec 3) (vd va vb : BitVec 6)
  /-- VSUB (R247). -/
  | vsub (d : Die) (pred : BitVec 3) (vd va vb : BitVec 6)
  /-- VADDW (R247). -/
  | vaddw (d : Die) (pred : BitVec 3) (vd va vb : BitVec 6)
  /-- VSUBW (R247). -/
  | vsubw (d : Die) (pred : BitVec 3) (vd va vb : BitVec 6)
  /-- VMUL (R247). -/
  | vmul (d : Die) (pred : BitVec 3) (vd va vb : BitVec 6) (md : BitVec 5)
  /-- VMIN (R247). -/
  | vmin (d : Die) (pred : BitVec 3) (vd va vb : BitVec 6)
  /-- VMAX (R247). -/
  | vmax (d : Die) (pred : BitVec 3) (vd va vb : BitVec 6)
  /-- VABS (R247). -/
  | vabs (d : Die) (pred : BitVec 3) (vd va : BitVec 6)
  /-- VAND (R247). -/
  | vand (d : Die) (pred : BitVec 3) (vd va vb : BitVec 6)
  /-- VOR (R247). -/
  | vor (d : Die) (pred : BitVec 3) (vd va vb : BitVec 6)
  /-- VXOR (R247). -/
  | vxor (d : Die) (pred : BitVec 3) (vd va vb : BitVec 6)
  /-- VSHL (R247). -/
  | vshl (d : Die) (pred : BitVec 3) (vd va : BitVec 6) (md : BitVec 5)
  /-- VASR (R247). -/
  | vasr (d : Die) (pred : BitVec 3) (vd va : BitVec 6) (md : BitVec 5)
  /-- VLSR (R247). -/
  | vlsr (d : Die) (pred : BitVec 3) (vd va : BitVec 6) (md : BitVec 5)
  /-- VSHLV (R247). -/
  | vshlv (d : Die) (pred : BitVec 3) (vd va vb : BitVec 6)
  /-- VASRV (R247). -/
  | vasrv (d : Die) (pred : BitVec 3) (vd va vb : BitVec 6)
  /-- VSEL (R247). -/
  | vsel (d : Die) (pred : BitVec 3) (vd va vb : BitVec 6)
  /-- VMOV (R247). -/
  | vmov (d : Die) (pred : BitVec 3) (vd va : BitVec 6)
  /-- VLDI (R247). -/
  | vldi (d : Die) (pred : BitVec 3) (vd : BitVec 6) (imm : BitVec 16)
  /-- VCMPLT (R247). -/
  | vcmplt (d : Die) (pred pd : BitVec 3) (va vb : BitVec 6)
  /-- VCMPLE (R247). -/
  | vcmple (d : Die) (pred pd : BitVec 3) (va vb : BitVec 6)
  /-- VCMPEQ (R247). -/
  | vcmpeq (d : Die) (pred pd : BitVec 3) (va vb : BitVec 6)
  /-- VMAC (R248). -/
  | vmac (d : Die) (pred : BitVec 3) (acc : BitVec 2) (va vb : BitVec 6)
  /-- VMSU (R248). -/
  | vmsu (d : Die) (pred : BitVec 3) (acc : BitVec 2) (va vb : BitVec 6)
  /-- VMPY (R248). -/
  | vmpy (d : Die) (pred : BitVec 3) (acc : BitVec 2) (va vb : BitVec 6)
  /-- VMACB (R248). -/
  | vmacb (d : Die) (pred : BitVec 3) (acc : BitVec 2) (va vb : BitVec 6) (md : BitVec 5)
  /-- VCLRA (R248). -/
  | vclra (d : Die) (pred : BitVec 3) (acc : BitVec 2)
  /-- VRSUMA (R247). -/
  | vrsuma (d : Die) (pred : BitVec 3) (acc : BitVec 2)
  /-- VEXT (R247). -/
  | vext (d : Die) (pred : BitVec 3) (vd : BitVec 6) (acc : BitVec 2) (md : BitVec 5)
  /-- VEXTV (R249). -/
  | vextv (d : Die) (pred : BitVec 3) (vd : BitVec 6) (acc : BitVec 2) (vb : BitVec 6)
  /-- VNORM (R249). -/
  | vnorm (d : Die) (pred : BitVec 3) (vd va : BitVec 6)
  /-- VNORMA (R249). -/
  | vnorma (d : Die) (pred : BitVec 3) (vd : BitVec 6) (acc : BitVec 2)
  /-- VEXP (R249). -/
  | vexp (d : Die) (pred : BitVec 3) (vd va : BitVec 6)
  /-- VEXPA (R249). -/
  | vexpa (d : Die) (pred : BitVec 3) (vd : BitVec 6) (acc : BitVec 2)
  /-- VLD (R241). -/
  | vld (d : Die) (v : BitVec 6) (mm : Mem) (ecc : Ecc)
  /-- VST (R250). -/
  | vst (d : Die) (v : BitVec 6) (mm : Mem)
  /-- VLDC (R250). -/
  | vldc (d : Die) (v : BitVec 6) (mm : Mem) (ecc : Ecc)
  /-- VLDB (R250). -/
  | vldb (d : Die) (v : BitVec 6) (mm : Mem) (ecc : Ecc)
  /-- SLD (R250). -/
  | sld (d : Die) (sr : BitVec 4) (mm : Mem) (ecc : Ecc) (view : Option (Nat × Bool))
  /-- SST (R250). -/
  | sst (d : Die) (sr : BitVec 4) (mm : Mem)
  /-- VGET (R250). -/
  | vget (d : Die) (sr : BitVec 4) (v : BitVec 6) (lane : BitVec 5)
  /-- VSPLAT (R250). -/
  | vsplat (d : Die) (v : BitVec 6) (sr : BitVec 4)
  /-- PGET (R250). -/
  | pget (d : Die) (sr : BitVec 4) (p : BitVec 3)
  /-- PSET (R250). -/
  | pset (d : Die) (sr : BitVec 4) (p : BitVec 3)
  /-- SADD (R250). -/
  | sadd (d : Die) (dst sa : BitVec 4) (b : Src)
  /-- SSUB (R250). -/
  | ssub (d : Die) (dst sa : BitVec 4) (b : Src)
  /-- SAND (R250). -/
  | sand (d : Die) (dst sa : BitVec 4) (b : Src)
  /-- SOR (R250). -/
  | sor (d : Die) (dst sa : BitVec 4) (b : Src)
  /-- SXOR (R250). -/
  | sxor (d : Die) (dst sa : BitVec 4) (b : Src)
  /-- SSHL (R250). -/
  | sshl (d : Die) (dst sa : BitVec 4) (b : Src)
  /-- SLSR (R250). -/
  | slsr (d : Die) (dst sa : BitVec 4) (b : Src)
  /-- SASR (R250). -/
  | sasr (d : Die) (dst sa : BitVec 4) (b : Src)
  /-- SMIN (R250). -/
  | smin (d : Die) (dst sa : BitVec 4) (b : Src)
  /-- SMAX (R250). -/
  | smax (d : Die) (dst sa : BitVec 4) (b : Src)
  /-- SMUL (R250). -/
  | smul (d : Die) (dst sa : BitVec 4) (b : Src)
  /-- SCMPLT (R250). -/
  | scmplt (d : Die) (dst sa : BitVec 4) (b : Src)
  /-- SCMPEQ (R250). -/
  | scmpeq (d : Die) (dst sa : BitVec 4) (b : Src)
  /-- SLI (R250). -/
  | sli (d : Die) (dst : BitVec 4) (imm : BitVec 22)
  /-- SHI (R250). -/
  | shi (d : Die) (dst : BitVec 4) (imm : BitVec 16)
  /-- AMOV (R250). -/
  | amov (d : Die) (dst sa : BitVec 4) (b : Src)
  /-- AADD (R250). -/
  | aadd (d : Die) (dst : BitVec 4) (b : Src)
  /-- AGET (R250). -/
  | aget (d : Die) (dst sa : BitVec 4)
  /-- MMOV (R250). -/
  | mmov (d : Die) (dst sa : BitVec 4) (b : Src)
  /-- CBSET (R250). -/
  | cbset (d : Die) (dst sa sb : BitVec 4)
  /-- MFS (R250). -/
  | mfs (d : Die) (dst sp : BitVec 4)
  /-- MTS (R250). -/
  | mts (d : Die) (sp sa : BitVec 4)
  /-- BR (R238). -/
  | br (d : Die) (off : BitVec 16)
  /-- BZ (R250). -/
  | bz (d : Die) (sa : BitVec 4) (off : BitVec 16)
  /-- BNZ (R250). -/
  | bnz (d : Die) (sa : BitVec 4) (off : BitVec 16)
  /-- BNEG (R250). -/
  | bneg (d : Die) (sa : BitVec 4) (off : BitVec 16)
  /-- CALL (R250). -/
  | call (d : Die) (off : BitVec 16)
  /-- RET (R250). -/
  | ret (d : Die)
  /-- RETI (R261). -/
  | reti (d : Die)
  /-- REP (R257). -/
  | rep (d : Die) (rot : Bool) (stg : BitVec 2) (len : BitVec 6) (cnt : RepCount) (rsz : Bool)
  /-- YIELD (R256). -/
  | yield (d : Die)
  /-- PUB (R252). -/
  | pub (d : Die) (sd : BitVec 4) (tgt : BitVec 5) (kind : BitVec 4) (idx : BitVec 2)
  /-- CAPREQ (R253). -/
  | capreq (d : Die) (sd : BitVec 4) (tgt : BitVec 5) (point dec : BitVec 3) (sa sb : BitVec 4)
  /-- CREL (R253). -/
  | crel (d : Die) (tgt : BitVec 5) (bank : Bool)
  /-- RDPC (R254). -/
  | rdpc (d : Die) (sd kk : BitVec 4)
  /-- QUALITY_WINDOW_END (R283). -/
  | qualityWindowEnd (q h : List Moments)
  /-- REFCAL_STEP_TIMEOUT (R267). -/
  | refcalStepTimeout (step : RefStep) (n : Lane)
  /-- REFCAL_COMPLETE (R267). -/
  | refcalComplete (vref : BitVec 16) (calOk txOk : BitVec 8)
  /-- BOOT_COMMIT (R328). -/
  | bootCommit (us : BitVec 32)
  /-- CONVERSION_SLOT (R336). -/
  | conversionSlot (x : BitVec 16)
  /-- PASS_START (R341). -/
  | passStart
  /-- SEQ_TIMER_TRIGGER (R340). -/
  | seqTimerTrigger
  /-- SEQ_TICK_TRIGGER (R340). -/
  | seqTickTrigger
  /-- SLEW_UPDATE (R355). -/
  | slewUpdate (c : Chan)
  /-- SPAN_SWITCH_WAIT_END (R356). -/
  | spanSwitchWaitEnd (c : Chan)
  /-- SHORT_CIRCUIT_DETECT (R358). -/
  | shortCircuitDetect (c : Chan)
  /-- THERMAL_SAMPLE (R367). -/
  | thermalSample (d : Die) (temps : List (BitVec 16))
  /-- SHUTDOWN_LANES_DOWN (R374). -/
  | shutdownLanesDown
  /-- THROTTLE_STEP (R370). -/
  | throttleStep (r : Region)
  /-- AON_THERMAL_SAMPLE (R376). -/
  | aonThermalSample (t : BitVec 16)
  /-- SLEEP_ENTRY (R389). -/
  | sleepEntry
  /-- ENTRY_DRAIN_DONE (R389). -/
  | entryDrainDone
  /-- ENTRY_DRAIN_TIMEOUT (R389). -/
  | entryDrainTimeout
  /-- ENTRY_SAVE_DONE (R334). -/
  | entrySaveDone
  /-- ENTRY_SAVE_TIMEOUT (R389). -/
  | entrySaveTimeout
  /-- ENTRY_AVS_CONFIRM (R389). -/
  | entryAvsConfirm
  /-- ENTRY_AVS_TIMEOUT (R389). -/
  | entryAvsTimeout
  /-- WAKE_N_ASSERT (R391). -/
  | wakeNAssert
  /-- SIGNAL_DETECT_WAKE (R391). -/
  | signalDetectWake (host : Bool) (lane : Fin 16)
  /-- WAKE_STEP_DONE (R392). -/
  | wakeStepDone (saved : Bool) (us : BitVec 32)
  /-- WAKE_STEP_TIMEOUT (R392). -/
  | wakeStepTimeout (which : Fin 8)
  /-- WAKE_RETRY (R392). -/
  | wakeRetry
  /-- AVS_READBACK (R395). -/
  | avsReadback (mv : BitVec 16) (agree : Bool)
  /-- AVS_TEMP_STEP (R395). -/
  | avsTempStep (up : Bool)
  /-- VAON_MAIN_LOSS (R398). -/
  | vaonMainLoss (bkup : Bool)
  /-- VAON_MAIN_RETURN (R397). -/
  | vaonMainReturn
  /-- POWER_GOOD_LOSS (R399). -/
  | powerGoodLoss (pg : Fin 3)
  /-- SUPPLY_RECOVERY (R399). -/
  | supplyRecovery
  /-- REFCLK_LOSS (R494). -/
  | refclkLoss
  /-- REFCLK_RETURN (R494). -/
  | refclkReturn
  /-- POWER_ON_RESET (R403). -/
  | powerOnReset
  /-- RESET_N_ASSERT (R404). -/
  | resetNAssert
  /-- WARM_RESET_RECOGNISED (R424). -/
  | warmResetRecognised
  /-- RESET_ESCALATION (R404). -/
  | resetEscalation
  /-- RESET_N_RELEASE (R424). -/
  | resetNRelease
  /-- TRIM_LOAD_COMPLETE (R408). -/
  | trimLoadComplete (crc : Bool)
  /-- TRIM_RECHECK (R409). -/
  | trimRecheck (ok : Bool)
  /-- COLD_START_STEP_DONE (R410). -/
  | coldStartStepDone (role src : BitVec 2) (aonOk : Bool)
  /-- COLD_START_STEP_TIMEOUT (R410). -/
  | coldStartStepTimeout (which : Fin 8)
  /-- FIRMWARE_VERIFIED (R416). -/
  | firmwareVerified (readable : Bool)
  /-- WATCHDOG_EXPIRY (R421). -/
  | watchdogExpiry
  /-- SVN_FLOOR_RAISE (R419). -/
  | svnFloorRaise
  /-- ACTIVATION_PAUSE (R422). -/
  | activationPause
  /-- ACTIVATION_SERVE (R422). -/
  | activationServe (ms : BitVec 16)
  /-- ACTIVATION_TIMEOUT (R423). -/
  | activationTimeout
  /-- HEALTH_MIRROR_WRITE (R426). -/
  | healthMirrorWrite
  /-- SELFTEST_SLICE_END (R429). -/
  | selftestSliceEnd (cut : Bool) (pass : BitVec 66)
  /-- SELFTEST_HANDOVER (R429). -/
  | selftestHandover (cut pass : Bool)
  /-- JTAG_IDCODE (R504). -/
  | jtagIdcode
  /-- JTAG_BYPASS (R432). -/
  | jtagBypass
  /-- JTAG_SAMPLE_PRELOAD (R432). -/
  | jtagSamplePreload (pins load : Nat)
  /-- JTAG_EXTEST (R432). -/
  | jtagExtest (pins : Nat)
  /-- SCAN_EN (R432). -/
  | scanEn (zero : Bool)
  /-- MBIST_EN (R432). -/
  | mbistEn (zero : Bool)
  /-- DBG_EN (R432). -/
  | dbgEn (zero : Bool)
  /-- OWNER_KEY (R430). -/
  | ownerKey (slot : Fin 4) (hash : BitVec 384)
  /-- REVOKE_KEY (R430). -/
  | revokeKey (slot : Fin 4)
  /-- TEN_TRAIN_STEP_DONE (R443). -/
  | tenTrainStepDone (p : Port) (inv0 inv1 swap dir : Bool)
  /-- TEN_TRAIN_TIMEOUT (R443). -/
  | tenTrainTimeout (p : Port)
  /-- TEN_RETRAIN_DELAY (R443). -/
  | tenRetrainDelay (p : Port)
  /-- TEN_LINK_LOSS (R445). -/
  | tenLinkLoss (p : Port) (lol : Bool)
  /-- TICK_BLOCK (R448). -/
  | tickBlock (offset : BitVec 24) (ridge : Bool) (hops : BitVec 5) (no : BitVec 24) (near since : Int) (residence : BitVec 24)
  /-- TIME_BLOCK (R450). -/
  | timeBlock (no : BitVec 48) (mode : BitVec 2)
  /-- PROBE_SEND (R446). -/
  | probeSend
  /-- PROBE_BLOCK (R446). -/
  | probeBlock (seq : Byte) (turn : BitVec 24)
  /-- ECHO_BLOCK (R446). -/
  | echoBlock (seq : Byte) (turn : BitVec 24) (trip : BitVec 32)
  /-- ENUM_BLOCK (R438). -/
  | enumBlock (addr : Byte)
  /-- ENUM_ACK_BLOCK (R438). -/
  | enumAckBlock (high : Byte)
  /-- TEN_REQUEST_MESSAGE (R455). -/
  | tenRequestMessage (dst src : Byte) (ok : Bool) (bytes : List Byte)
  /-- TEN_REPLY_MESSAGE (R455). -/
  | tenReplyMessage (src : Byte) (ok : Bool) (bytes : List Byte)
  /-- TELEMETRY_MESSAGE (R460). -/
  | telemetryMessage (src : Byte) (ok : Bool) (bytes : List Byte)
  /-- IMAGE_STREAM_MESSAGE (R458). -/
  | imageStreamMessage (dst : Byte) (ok : Bool) (bytes : List Byte)
  /-- ALARM_BLOCK (R460). -/
  | alarmBlock (addr b12 b13 : Byte)
  /-- SLEEP_NOTE_BLOCK (R461). -/
  | sleepNoteBlock (addr state : Byte)
  /-- TENON_WAKE_BLOCK (R462). -/
  | tenonWakeBlock (addr : Byte)
  /-- BOOT_REQ_BLOCK (R458). -/
  | bootReqBlock (addr : Byte) (wanted : BitVec 3)
  /-- BOOT_REQ_RESEND (R458). -/
  | bootReqResend
  /-- TELEMETRY_SEND (R460). -/
  | telemetrySend
  /-- TICK_TIMEOUT (R451). -/
  | tickTimeout
  /-- FWD_TIMEOUT (R456). -/
  | fwdTimeout
  /-- TELEM_LATE (R460). -/
  | telemLate
  /-- JOIN_WAIT_EXPIRY (R453). -/
  | joinWaitExpiry
  /-- TICK_SYNC_EDGE (R454). -/
  | tickSyncEdge (err : Int) (off : Nat)
  /-- TICK_SYNC_LOSS (R454). -/
  | tickSyncLoss
  /-- CAPTURE_TRIGGER (R471). -/
  | captureTrigger (n : Lane)
  /-- CAPTURE_END (R471). -/
  | captureEnd (n : Lane)
  /-- HIST_RUN_END (R476). -/
  | histRunEnd (n : Lane)
  /-- LOG_SUPPRESSION_END (R479). -/
  | logSuppressionEnd (code : BitVec 16) (inst : BitVec 8)
  /-- POWER_GOOD_RETURN (R399). -/
  | powerGoodReturn (pg : Fin 3)
  /-- IMAGE_WRITE_DONE (R417). -/
  | imageWriteDone (late fault : Bool)
  /-- RECIPE_BUNDLE_VERIFIED (R313). -/
  | recipeBundleVerified (fault : Bool)
  /-- ATTESTATION_SIGN_DONE (R431). -/
  | attestationSignDone
  /-- CONTROLLER_RESTART_DONE (R421). -/
  | controllerRestartDone
  /-- TENON_BOOT_TIMEOUT (R458). -/
  | tenonBootTimeout
  /-- TEN_BLOCK_DISCARDED (R441). -/
  | tenBlockDiscarded (p : Port)
  deriving DecidableEq, Repr

end Sys2Proof
end

