-- ==== Sys2Proof/Decode.lean ====
section
/-!
DEFINITION. The commands that words spell: the two syllables of a Joiner bundle by the formats and opcodes of Tables 8-7 to
8-10 (R245 to R247, R250, R252 to R254), with every reserved opcode, code and bit refused (R263), and the words of the
opcode table, which gives no row any bits.
-/

namespace Sys2Proof

open Machine

/-- Are the bits [hi:lo] of a syllable zero? -/
def zeroBits (w : Word) (hi lo : Nat) : Bool := decide (w.toNat / 2 ^ lo % 2 ^ (hi + 1 - lo) = 0)
/-- A field of a syllable from bit `lo`. -/
def bitField (n : Nat) (w : Word) (lo : Nat) : BitVec n := w.extractLsb' lo n
/-- An instruction where its reserved bits and codes allow it. -/
def legalIf (ok : Bool) (i : Instr) : Option Instr := if ok then some i else none

/-- The command an X syllable of Joiner `d` spells (Tables 8-7 and 8-9); none for an illegal word. DESIGN CHOICE: a field an
opcode does not use may hold anything (log 178). -/
def decodeX (d : Die) (w : Word) : Option Instr :=
  let pred := bitField 3 w 23
  let vd := bitField 6 w 17
  let va := bitField 6 w 11
  let vb := bitField 6 w 5
  let md := bitField 5 w 0
  let pd := bitField 3 w 17
  let accD := bitField 2 w 17
  let accA := bitField 2 w 11
  let macOk := zeroBits w 22 19
  let extOk := zeroBits w 16 13
  let cmpOk := zeroBits w 22 20 && decide (pd ≠ 0)
  match (bitField 6 w 26).toNat with
  | 0x00 => some (.nop d false)
  | 0x01 => some (.vadd d pred vd va vb)
  | 0x02 => some (.vsub d pred vd va vb)
  | 0x03 => some (.vaddw d pred vd va vb)
  | 0x04 => some (.vsubw d pred vd va vb)
  | 0x05 => some (.vmul d pred vd va vb md)
  | 0x06 => some (.vmin d pred vd va vb)
  | 0x07 => some (.vmax d pred vd va vb)
  | 0x08 => some (.vabs d pred vd va)
  | 0x09 => some (.vand d pred vd va vb)
  | 0x0A => some (.vor d pred vd va vb)
  | 0x0B => some (.vxor d pred vd va vb)
  | 0x0C => legalIf (zeroBits w 4 4) (.vshl d pred vd va md)
  | 0x0D => legalIf (zeroBits w 4 4) (.vasr d pred vd va md)
  | 0x0E => legalIf (zeroBits w 4 4) (.vlsr d pred vd va md)
  | 0x0F => some (.vshlv d pred vd va vb)
  | 0x10 => some (.vasrv d pred vd va vb)
  | 0x11 => some (.vsel d pred vd va vb)
  | 0x12 => some (.vmov d pred vd va)
  | 0x13 => legalIf (zeroBits w 0 0) (.vldi d pred vd (bitField 16 w 1))
  | 0x18 => legalIf cmpOk (.vcmplt d pred pd va vb)
  | 0x19 => legalIf cmpOk (.vcmple d pred pd va vb)
  | 0x1A => legalIf cmpOk (.vcmpeq d pred pd va vb)
  | 0x20 => legalIf macOk (.vmac d pred accD va vb)
  | 0x21 => legalIf macOk (.vmsu d pred accD va vb)
  | 0x22 => legalIf macOk (.vmpy d pred accD va vb)
  | 0x23 => legalIf macOk (.vmacb d pred accD va vb md)
  | 0x24 => legalIf macOk (.vclra d pred accD)
  | 0x25 => legalIf macOk (.vrsuma d pred accD)
  | 0x28 => legalIf extOk (.vext d pred vd accA md)
  | 0x29 => legalIf extOk (.vextv d pred vd accA vb)
  | 0x2A => some (.vnorm d pred vd va)
  | 0x2B => legalIf extOk (.vnorma d pred vd accA)
  | 0x2C => some (.vexp d pred vd va)
  | 0x2D => legalIf extOk (.vexpa d pred vd accA)
  | _ => none

/-- The memory operand of a YM syllable (Table 8-8). -/
def memField (w : Word) : Mem := ⟨bitField 4 w 22, bitField 3 w 13, bitField 2 w 11, bitField 3 w 8, bitField 8 w 0⟩
/-- Are the gate and the address mode of a YM syllable no reserved codes (R242, R259)? -/
def memOk (w : Word) : Bool := decide ((bitField 3 w 8 = 0 ∨ 4 ≤ (bitField 3 w 8).toNat) ∧ bitField 2 w 11 ≠ 3)
/-- The second operand of a YS syllable, and whether its reserved bits are zero (Table 8-8). -/
def srcField (w : Word) : Src := if w.getLsbD 17 then .imm (bitField 17 w 0) else .reg (bitField 4 w 13)
def srcOk (w : Word) : Bool := w.getLsbD 17 || zeroBits w 12 0
/-- The repeat count of a YR syllable. -/
def countField (w : Word) : RepCount := if w.getLsbD 16 then .reg (bitField 4 w 6) else .imm (bitField 10 w 6)

/-- The command a Y syllable of Joiner `d` spells (Tables 8-8 and 8-10, R252 to R254); none for an illegal word. What only
the run can supply, memory errors and the parameter view of SLD, is absent. -/
def decodeY (d : Die) (w : Word) : Option Instr :=
  let top := bitField 4 w 22
  let v := bitField 6 w 16
  let sr := bitField 4 w 16
  let sOk := zeroBits w 21 20
  let sa := bitField 4 w 18
  let mm := memField w
  let src := srcField w
  let off := bitField 16 w 0
  let ok := srcOk w
  let brOk := zeroBits w 21 16
  match (bitField 6 w 26).toNat with
  | 0x00 => some (.nop d true)
  | 0x01 => legalIf (memOk w) (.vld d v mm ⟨0, 0⟩)
  | 0x02 => legalIf (memOk w) (.vst d v mm)
  | 0x03 => legalIf (memOk w && zeroBits w 16 16) (.vldc d v mm ⟨0, 0⟩)
  | 0x04 => legalIf (memOk w) (.vldb d v mm ⟨0, 0⟩)
  | 0x05 => legalIf (memOk w && sOk) (.sld d sr mm ⟨0, 0⟩ none)
  | 0x06 => legalIf (memOk w && sOk) (.sst d sr mm)
  | 0x08 => legalIf (zeroBits w 10 0) (.vget d top v (bitField 5 w 11))
  | 0x09 => legalIf (zeroBits w 10 0) (.vsplat d v top)
  | 0x0A => legalIf (zeroBits w 10 0 && zeroBits w 21 19) (.pget d top (bitField 3 w 16))
  | 0x0B => legalIf (zeroBits w 10 0 && zeroBits w 21 19) (.pset d top (bitField 3 w 16))
  | 0x10 => legalIf ok (.sadd d top sa src)
  | 0x11 => legalIf ok (.ssub d top sa src)
  | 0x12 => legalIf ok (.sand d top sa src)
  | 0x13 => legalIf ok (.sor d top sa src)
  | 0x14 => legalIf ok (.sxor d top sa src)
  | 0x15 => legalIf ok (.sshl d top sa src)
  | 0x16 => legalIf ok (.slsr d top sa src)
  | 0x17 => legalIf ok (.sasr d top sa src)
  | 0x18 => legalIf ok (.smin d top sa src)
  | 0x19 => legalIf ok (.smax d top sa src)
  | 0x1A => legalIf ok (.smul d top sa src)
  | 0x1B => legalIf ok (.scmplt d top sa src)
  | 0x1C => legalIf ok (.scmpeq d top sa src)
  | 0x1E => some (.sli d top (bitField 22 w 0))
  | 0x1F => some (.shi d top (bitField 16 w 0))
  | 0x20 => legalIf ok (.amov d top sa src)
  | 0x21 => legalIf ok (.aadd d top src)
  | 0x22 => legalIf ok (.aget d top sa)
  | 0x23 => legalIf (ok && zeroBits w 25 25) (.mmov d top sa src)
  | 0x24 => legalIf (ok && zeroBits w 25 25 && zeroBits w 17 17) (.cbset d top sa (bitField 4 w 13))
  | 0x25 => legalIf (ok && decide (sa.toNat ≤ 6 ∨ sa = 8 ∨ sa = 9)) (.mfs d top sa)
  | 0x26 => legalIf (ok && decide (top = 2 ∨ top = 3 ∨ top = 8)) (.mts d top sa)
  | 0x30 => legalIf brOk (.br d off)
  | 0x31 => legalIf brOk (.bz d top off)
  | 0x32 => legalIf brOk (.bnz d top off)
  | 0x33 => legalIf brOk (.bneg d top off)
  | 0x34 => legalIf brOk (.call d off)
  | 0x35 => legalIf brOk (.ret d)
  | 0x36 => legalIf brOk (.reti d)
  | 0x37 => legalIf (zeroBits w 4 0 && (!w.getLsbD 16 || zeroBits w 15 10) && (w.getLsbD 25 || !w.getLsbD 5))
      (.rep d (w.getLsbD 25) (bitField 2 w 23) (bitField 6 w 17) (countField w) (w.getLsbD 5))
  | 0x38 => legalIf (zeroBits w 25 0) (.yield d)
  | 0x3A =>
    let k := (bitField 4 w 13).toNat
    let t := (bitField 5 w 17).toNat
    legalIf (zeroBits w 10 0 && decide ((1 ≤ k ∧ k ≤ 7 ∧ t < 8) ∨ (k = 8 ∧ 16 ≤ t)) && decide (k = 7 ∨ bitField 2 w 11 = 0))
      (.pub d top (bitField 5 w 17) (bitField 4 w 13) (bitField 2 w 11))
  | 0x3B => legalIf (zeroBits w 2 0 && decide ((bitField 5 w 17).toNat < 8 ∨ 16 ≤ (bitField 5 w 17).toNat))
      (.capreq d top (bitField 5 w 17) (bitField 3 w 14) (bitField 3 w 11) (bitField 4 w 7) (bitField 4 w 3))
  | 0x3C => legalIf (zeroBits w 19 0 && decide ((bitField 5 w 21).toNat < 8 ∨ 16 ≤ (bitField 5 w 21).toNat))
      (.crel d (bitField 5 w 21) (w.getLsbD 20))
  | 0x3D =>
    let k := (bitField 4 w 18).toNat
    legalIf (zeroBits w 17 0 && decide (k ≤ 12 ∧ (k < 8 ∨ top.toNat % 2 = 0))) (.rdpc d top (bitField 4 w 18))
  | _ => none

/-- The command an `nbits`-bit word spells by the bits of the opcode table: none, since no row of it gives bits. -/
def decodeTableWord (_nbits _w : Nat) : Option Instr := none

end Sys2Proof
end

