-- ==== Sys2Proof/Config.lean ====
section
/-!
DEFINITION. What the manual leaves open: free values and the functions of external standards, as constants without a
body.
-/

namespace Sys2Proof.Config

/-- The state of a line lane's PRBS31 generator at the start of its n-th fill period: R159 leaves it unspecified
(log 2). -/
opaque fillSeed : Nat → BitVec 31

/-- A value the manual does not state, the n-th one drawn (log 2). -/
opaque freeValue : Nat → BitVec 64

/-- Coefficient `i` of section `sec` of a filter preset: Table 12-4 gives the responses, not the coefficients (log 13). -/
opaque filterPreset : Nat → Nat → Nat → BitVec 20

/-- SHA-384 of a byte string (FIPS 180-4, outside the manual; log 7). -/
opaque sha384 : List Byte → BitVec 384

/-- Does an ECDSA P-384 / SHA-384 signature verify: public key, message, signature (FIPS 186-5, outside the manual;
log 7)? -/
opaque ecdsaOk : List Byte → List Byte → List Byte → Bool

/-- The key hash fused in slot 0 (R430; log 4). -/
opaque rootKey : BitVec 384

/-- The 96 signature bytes of the attestation key over these bytes (R431; log 7). -/
opaque attest : List Byte → BitVec 768

/-- The host lane of the region on which symbol `i` of codeword `c` of a group lies, per rate mode: the PCS lanes and PMA
mapping of IEEE 802.3, outside the manual (R161, R162; log 171). -/
opaque pcsLane : Nat → Nat → Nat → Fin 4

/-- The place, in its host lane's bits of the group, of bit `b` of symbol `i` of codeword `c`, per rate mode (R161;
log 171). -/
opaque pcsBit : Nat → Nat → Nat → Nat → Nat

/-- The PAM4 level a host lane sends at a symbol of its training frames, with the answer, the precoding request and the
ready status the frame carries (IEEE 802.3dj, outside the manual; R185, log 172). -/
opaque trainSymbol : Nat → Nat → Nat → BitVec 2

/-- Word `i` of factory receive start set 1 to 3, in the layout of kind 0x08: R183 names the sets, not their values
(log 173). -/
opaque startWord : Nat → Nat → BitVec 8

/-- The instant error, in fs, that an asymmetry of the cross-correlation with the neighbouring phases shows: R272 names the
measure, not the formula (log 184). -/
opaque lateOf : Int → Int

/-- LIMITS a bundle does not give, in the order of Table 9-11: R289 names the factory content, not its values (log 186). -/
opaque limit : Nat → BitVec 6

/-- The correction, in trim steps since REFCAL, that a reference of Table 9-1 needs at a sensor reading of 0.25 °C, by its
fused temperature coefficients (R377, log 188). -/
opaque drift : Nat → Int → Int

end Sys2Proof.Config
end

