-- ==== Sys2Proof/Machine/Fields.lean ====
section
/-!
DEFINITION. The parameter map of R322: one row per field of the field tables (Tables 2-14, 3-11, 4-12, 5-7, 6-9,
6-10, 7-17, 9-7, 9-14, 11-2, 12-10, 12-11, 13-6, 14-10, 15-14, 16-8 and 17-6), the addresses of R17 by name, the
width, access class and reset value of each address.
-/

namespace Sys2Proof.Machine

/-- Access classes of Table 0-8 (R19). -/
inductive Cls where
  | s | l | k | ro
  deriving DecidableEq, Repr

/-- One row of a field table: field codes `lo` to `hi`, repeated `rep` times at a stride of 0x10, the width in bits
(R324), the access class, whether the field is held in the always-on island, and the reset value. -/
structure FieldRow where
  lo : Nat
  hi : Nat
  rep : Nat
  width : Nat
  cls : Cls
  aon : Bool
  reset : Nat
  deriving DecidableEq, Repr

/-- Does the row hold this field code? -/
def FieldRow.covers (r : FieldRow) (off : Nat) : Bool :=
  if r.rep = 1 then decide (r.lo ≤ off ∧ off ≤ r.hi)
  else decide (r.lo ≤ off ∧ (off - r.lo) / 16 < r.rep ∧ (off - r.lo) % 16 ≤ r.hi - r.lo)

/-- A parameter address (R17): block code [31:24], instance [23:16], field code [15:0]. -/
def fld (blk inst off : Nat) : Nat := blk * 0x1000000 + inst * 0x10000 + off

/-- Block code of an address (R17). -/
def blkOf (a : Nat) : Nat := a / 0x1000000
/-- Instance of an address (R17). -/
def instOf (a : Nat) : Nat := a / 0x10000 % 0x100
/-- Field code of an address (R17). -/
def offOf (a : Nat) : Nat := a % 0x10000

/-- The fields of block DEV (R322). -/
def rowsDEV : List FieldRow := [
  ⟨0x0000, 0x0000, 1, 8, .ro, false, 176⟩, -- STEPPING
  ⟨0x0001, 0x0001, 1, 8, .ro, false, 1⟩, -- PACKAGE
  ⟨0x0002, 0x0002, 1, 64, .ro, false, 0⟩, -- SERIAL
  ⟨0x0003, 0x0003, 1, 2, .ro, true, 0⟩, -- ROLE
  ⟨0x0004, 0x0004, 1, 2, .ro, true, 0⟩, -- BOOT_SRC
  ⟨0x0005, 0x0005, 1, 1, .ro, true, 0⟩, -- SERVING_DIE
  ⟨0x0006, 0x0006, 1, 48, .ro, true, 0⟩, -- TICKNO
  ⟨0x0007, 0x0007, 1, 32, .ro, false, 0⟩, -- CFG_GEN0
  ⟨0x0008, 0x0008, 1, 32, .ro, false, 0⟩, -- CFG_GEN1
  ⟨0x0010, 0x0010, 1, 1, .ro, true, 0⟩, -- SPLIT
  ⟨0x0011, 0x0011, 1, 2, .k, false, 0⟩, -- RATE_MODE0
  ⟨0x0012, 0x0012, 1, 2, .k, false, 0⟩, -- RATE_MODE1
  ⟨0x0013, 0x0013, 1, 1, .k, false, 0⟩, -- FEC_MODE0
  ⟨0x0014, 0x0014, 1, 1, .k, false, 0⟩, -- FEC_MODE1
  ⟨0x0020, 0x0020, 1, 7, .ro, true, 76⟩, -- I2C_ADDR
  ⟨0x0030, 0x0030, 1, 32, .ro, false, 0⟩, -- FW_SEQ
  ⟨0x0031, 0x0031, 1, 32, .ro, false, 0⟩, -- CFG_SEQ
  ⟨0x0032, 0x0032, 1, 2, .ro, false, 0⟩, -- CFG_COPY
  ⟨0x0033, 0x0033, 1, 32, .ro, false, 0⟩, -- BUNDLE_SEQ
  ⟨0x0034, 0x0034, 1, 32, .ro, false, 0⟩, -- BUNDLE_STAGED
  ⟨0x0035, 0x0035, 1, 2, .ro, false, 0⟩, -- BOOT_COMMIT
  ⟨0x0040, 0x0040, 1, 16, .ro, false, 0⟩, -- MC_RESTART_CNT
  ⟨0x0041, 0x0041, 1, 32, .ro, false, 0⟩, -- CMD_DROP_CNT
  ⟨0x0042, 0x0042, 1, 12, .ro, false, 0⟩, -- STAGED0
  ⟨0x0043, 0x0043, 1, 12, .ro, false, 0⟩, -- STAGED1
  ⟨0x0044, 0x0044, 1, 16, .ro, false, 0⟩, -- STAGED_LOST_CNT
  ⟨0x0100, 0x0100, 1, 2, .ro, false, 0⟩, -- REF_STATE
  ⟨0x0101, 0x0101, 1, 16, .ro, false, 0⟩, -- VREF_MEAS
  ⟨0x0102, 0x0102, 1, 8, .ro, false, 0⟩, -- CALSRC_FAIL
  ⟨0x0103, 0x0103, 1, 8, .ro, false, 0⟩, -- TXSENSE_FAIL
  ⟨0x0104, 0x0104, 1, 8, .ro, false, 0⟩, -- RXCAL_VALID_L400
  ⟨0x0105, 0x0105, 1, 8, .ro, false, 0⟩, -- RXCAL_VALID_L200
  ⟨0x0106, 0x0106, 1, 8, .ro, false, 0⟩, -- TXCAL_VALID_L400
  ⟨0x0107, 0x0107, 1, 8, .ro, false, 0⟩, -- TXCAL_VALID_L200
  ⟨0x0110, 0x0110, 1, 32, .ro, false, 1073741824⟩, -- STALE_TICKS
  ⟨0x0111, 0x0111, 1, 16, .ro, false, 1024⟩, -- QUAL_WIN
  ⟨0x0120, 0x0120, 1, 32, .ro, false, 0⟩, -- CAL_RUN_CNT
  ⟨0x0121, 0x0121, 1, 32, .ro, false, 0⟩, -- CAL_BG_CNT
  ⟨0x0122, 0x0122, 1, 32, .ro, false, 0⟩, -- CAL_DEG_CNT
  ⟨0x0123, 0x0123, 1, 32, .ro, false, 0⟩] -- STALE_CNT

/-- The fields of block LRX (R322). -/
def rowsLRX : List FieldRow := [
  ⟨0x0000, 0x0000, 1, 3, .ro, false, 0⟩, -- STATE
  ⟨0x0001, 0x0001, 1, 8, .ro, false, 0⟩, -- FLAGS
  ⟨0x0002, 0x0002, 1, 2, .ro, false, 0⟩, -- CAL_METHOD
  ⟨0x0010, 0x0010, 1, 1, .k, false, 0⟩, -- INPUT_CPL
  ⟨0x0011, 0x0011, 1, 1, .k, false, 0⟩, -- INPUT_POL
  ⟨0x0012, 0x0012, 1, 5, .s, false, 12⟩, -- CTLE_PEAK
  ⟨0x0013, 0x0013, 1, 6, .s, false, 24⟩, -- VGA_GAIN
  ⟨0x0014, 0x0014, 1, 6, .l, false, 2⟩, -- SD_THR
  ⟨0x0015, 0x0015, 1, 8, .l, false, 4⟩, -- LOS_TICKS
  ⟨0x0016, 0x0016, 1, 1, .s, false, 1⟩, -- AUTO_RELINK
  ⟨0x0020, 0x0020, 1, 6, .s, false, 33⟩, -- FFE_TAPS
  ⟨0x0021, 0x0021, 1, 5, .s, false, 6⟩, -- FFE_MAIN
  ⟨0x0022, 0x0022, 1, 1, .l, false, 0⟩, -- FFE_FREEZE
  ⟨0x0030, 0x0050, 1, 10, .ro, false, 0⟩, -- FFE_COEF
  ⟨0x0060, 0x0060, 1, 1, .s, false, 1⟩, -- CTX_EN
  ⟨0x0061, 0x0061, 1, 5, .s, false, 16⟩, -- CTX_CLASS_CEIL
  ⟨0x0070, 0x0070, 1, 16, .ro, false, 0⟩, -- LLR_SET_ID
  ⟨0x0080, 0x0080, 1, 3, .ro, false, 0⟩, -- TR_ROW
  ⟨0x0081, 0x0081, 1, 16, .ro, false, 0⟩, -- TR_FREQ
  ⟨0x0082, 0x0082, 1, 16, .l, false, 1024⟩, -- TR_LOCK_THR
  ⟨0x0083, 0x0083, 1, 16, .ro, false, 0⟩, -- TR_LOCK_METRIC
  ⟨0x0090, 0x0090, 1, 64, .ro, false, 0⟩, -- SLICE_HEALTH_LO
  ⟨0x0091, 0x0091, 1, 2, .ro, false, 0⟩, -- SLICE_HEALTH_HI
  ⟨0x00A0, 0x00DF, 1, 7, .ro, false, 0⟩, -- SLICE_MAP
  ⟨0x00E0, 0x00E0, 1, 32, .ro, false, 0⟩, -- CLIP_CNT
  ⟨0x00E1, 0x00E1, 1, 16, .l, false, 64⟩, -- CLIP_THR
  ⟨0x00E2, 0x00E2, 1, 12, .ro, false, 0⟩, -- WORDS
  ⟨0x00F0, 0x00F0, 1, 32, .ro, false, 0⟩, -- RELINK_CNT
  ⟨0x00F1, 0x00F1, 1, 16, .ro, false, 0⟩, -- RELINK_FALLBACK
  ⟨0x00F2, 0x00F2, 1, 32, .ro, false, 0⟩, -- LOS_CNT
  ⟨0x00F3, 0x00F3, 1, 32, .ro, false, 0⟩] -- LOL_CNT

/-- The fields of block LTX (R322). -/
def rowsLTX : List FieldRow := [
  ⟨0x0000, 0x0000, 1, 3, .ro, false, 0⟩, -- STATE
  ⟨0x0001, 0x0001, 1, 8, .ro, false, 0⟩, -- FLAGS
  ⟨0x0010, 0x0010, 1, 1, .k, false, 0⟩, -- OUT_POL
  ⟨0x0011, 0x0011, 1, 6, .s, false, 21⟩, -- SWING
  ⟨0x0012, 0x0012, 1, 1, .l, false, 0⟩, -- SQUELCH
  ⟨0x0020, 0x0020, 1, 1, .s, false, 1⟩, -- SHP_EN
  ⟨0x0021, 0x0021, 1, 16, .ro, false, 0⟩, -- SHP_SET_ID
  ⟨0x0030, 0x0030, 1, 3, .s, false, 2⟩, -- FIR_MAIN
  ⟨0x0040, 0x0048, 1, 10, .s, false, 0⟩, -- FIR_TAP0–FIR_TAP8
  ⟨0x0050, 0x0053, 1, 32, .ro, false, 0⟩, -- SUBDAC_TRIM
  ⟨0x0054, 0x0054, 1, 4, .ro, false, 0⟩, -- SUBDAC_HEALTH
  ⟨0x0060, 0x0060, 1, 32, .ro, false, 0⟩, -- SAT_CNT
  ⟨0x0061, 0x0061, 1, 2, .ro, false, 0⟩, -- CLK_SRC
  ⟨0x0062, 0x0062, 1, 16, .ro, false, 0⟩, -- CLK_FREQ
  ⟨0x0070, 0x0070, 1, 32, .ro, false, 0⟩, -- FILL_CNT
  ⟨0x0071, 0x0071, 1, 32, .ro, false, 0⟩] -- SQUELCH_CNT

/-- The fields of block CTX (R322). -/
def rowsCTX : List FieldRow := [
  ⟨0x0001, 0x0001, 1, 8, .ro, false, 0⟩, -- FLAGS
  ⟨0x0002, 0x0002, 1, 2, .ro, false, 0⟩, -- ACT_BANK
  ⟨0x0003, 0x0003, 1, 4, .ro, false, 0⟩, -- SHADOW_STATE
  ⟨0x0010, 0x0010, 1, 16, .ro, false, 0⟩, -- SET_ID
  ⟨0x0011, 0x0011, 1, 48, .ro, false, 0⟩, -- EPOCH
  ⟨0x0012, 0x0012, 1, 16, .ro, false, 32768⟩, -- TEMP
  ⟨0x0015, 0x0015, 1, 48, .ro, false, 0⟩, -- SHP_EPOCH
  ⟨0x0016, 0x0016, 1, 16, .ro, false, 32768⟩, -- SHP_TEMP
  ⟨0x0020, 0x005F, 1, 7, .ro, false, 0⟩, -- REPL_MAP
  ⟨0x0060, 0x009F, 1, 7, .ro, false, 0⟩, -- SHP_MAP
  ⟨0x00A0, 0x00A0, 1, 64, .ro, false, 0⟩, -- REPL_HEALTH_LO
  ⟨0x00A1, 0x00A1, 1, 2, .ro, false, 0⟩, -- REPL_HEALTH_HI
  ⟨0x00A2, 0x00A2, 1, 64, .ro, false, 0⟩, -- SHP_HEALTH_LO
  ⟨0x00A3, 0x00A3, 1, 2, .ro, false, 0⟩, -- SHP_HEALTH_HI
  ⟨0x00A4, 0x00A4, 1, 64, .ro, false, 0⟩, -- REPL_READY_LO
  ⟨0x00A5, 0x00A5, 1, 2, .ro, false, 0⟩, -- REPL_READY_HI
  ⟨0x00A6, 0x00A6, 1, 64, .ro, false, 0⟩, -- SHP_READY_LO
  ⟨0x00A7, 0x00A7, 1, 2, .ro, false, 0⟩, -- SHP_READY_HI
  ⟨0x00B0, 0x00B7, 1, 32, .ro, false, 0⟩, -- REMAP
  ⟨0x00C0, 0x00CF, 1, 32, .ro, false, 0⟩, -- TRACK
  ⟨0x00D0, 0x00D0, 1, 2, .s, false, 3⟩, -- RETAIN
  ⟨0x00E0, 0x00E0, 1, 32, .ro, false, 0⟩, -- CORR_EVENTS
  ⟨0x00E1, 0x00E1, 1, 32, .ro, false, 0⟩, -- UNCORR_EVENTS
  ⟨0x00E2, 0x00E2, 1, 32, .ro, false, 0⟩, -- POISON_CNT
  ⟨0x00E3, 0x00E3, 1, 32, .ro, false, 0⟩, -- REWRITE_CNT
  ⟨0x00E4, 0x00E4, 1, 32, .ro, false, 0⟩, -- REFRESH_CNT
  ⟨0x00E5, 0x00E5, 1, 16, .ro, false, 0⟩, -- REMAP_CNT
  ⟨0x00E6, 0x00E6, 1, 16, .ro, false, 0⟩, -- RETIRE_CNT
  ⟨0x00E7, 0x00E7, 1, 32, .ro, false, 0⟩, -- TRACK_OVF
  ⟨0x00E8, 0x00E8, 1, 32, .ro, false, 0⟩, -- SCRUB_SWEEPS
  ⟨0x00E9, 0x00E9, 1, 32, .ro, false, 0⟩] -- PUBLISH_HELD

/-- The fields of block FEC (R322). -/
def rowsFEC : List FieldRow := [
  ⟨0x0000, 0x0000, 1, 2, .ro, false, 0⟩, -- FRAME_STATE
  ⟨0x0001, 0x0001, 1, 8, .ro, false, 0⟩, -- FLAGS
  ⟨0x0010, 0x0010, 1, 16, .ro, false, 0⟩, -- SCHED_SET_ID
  ⟨0x0011, 0x0020, 1, 8, .ro, false, 0⟩, -- SCHED
  ⟨0x0021, 0x0021, 1, 5, .ro, false, 16⟩, -- SCHED_SERVED
  ⟨0x0030, 0x004F, 1, 6, .ro, false, 0⟩, -- EVAL_MAP
  ⟨0x0050, 0x0050, 1, 34, .ro, false, 0⟩, -- EVAL_HEALTH
  ⟨0x0051, 0x0051, 1, 34, .ro, false, 0⟩, -- EVAL_READY
  ⟨0x0052, 0x0052, 1, 32, .ro, false, 0⟩, -- EVAL_MISMATCH
  ⟨0x0053, 0x0053, 1, 32, .ro, false, 0⟩, -- LOF_CNT
  ⟨0x0060, 0x0060, 1, 32, .ro, false, 0⟩, -- SNAP_SEQ
  ⟨0x0061, 0x0061, 1, 48, .ro, false, 0⟩, -- SNAP_TICKNO
  ⟨0x0062, 0x0062, 1, 13, .ro, false, 0⟩, -- CW
  ⟨0x0063, 0x0063, 1, 13, .ro, false, 0⟩, -- CW_CORR
  ⟨0x0064, 0x0064, 1, 16, .ro, false, 0⟩, -- BITS_CORR
  ⟨0x0065, 0x0065, 1, 13, .ro, false, 0⟩, -- CW_UNCORR
  ⟨0x0070, 0x0070, 1, 16, .ro, false, 0⟩, -- HM_SYM_IN
  ⟨0x0071, 0x0071, 1, 16, .ro, false, 0⟩, -- HM_SYM_OUT
  ⟨0x0072, 0x0072, 1, 9, .ro, false, 0⟩, -- HM_CW_IN
  ⟨0x0073, 0x0073, 1, 9, .ro, false, 0⟩, -- HM_UNCORR_IN
  ⟨0x0074, 0x0074, 1, 9, .ro, false, 0⟩, -- HM_CW_OUT
  ⟨0x0075, 0x0075, 1, 9, .ro, false, 0⟩, -- HM_UNCORR_OUT
  ⟨0x0080, 0x0090, 1, 9, .ro, false, 0⟩, -- HM_HIST_OUT
  ⟨0x00A0, 0x00A0, 1, 64, .ro, false, 0⟩, -- CW_TOT
  ⟨0x00A1, 0x00A1, 1, 64, .ro, false, 0⟩, -- BITS_CORR_TOT
  ⟨0x00A2, 0x00A2, 1, 64, .ro, false, 0⟩, -- CW_UNCORR_TOT
  ⟨0x00A3, 0x00A3, 1, 64, .ro, false, 0⟩, -- HM_UNCORR_IN_TOT
  ⟨0x00A4, 0x00A4, 1, 64, .ro, false, 0⟩, -- HM_UNCORR_OUT_TOT
  ⟨0x00A5, 0x00A5, 1, 32, .ro, false, 0⟩] -- SEG_BYPASS_TICKS

/-- The fields of block HRX (R322). -/
def rowsHRX : List FieldRow := [
  ⟨0x0000, 0x0000, 1, 3, .ro, false, 0⟩, -- STATE
  ⟨0x0001, 0x0001, 1, 8, .ro, false, 0⟩, -- FLAGS
  ⟨0x0010, 0x0010, 1, 1, .k, false, 0⟩, -- INPUT_POL
  ⟨0x0011, 0x0011, 1, 1, .k, false, 1⟩, -- LT_EN
  ⟨0x0012, 0x0012, 1, 1, .k, false, 0⟩, -- PRECODE_REQ
  ⟨0x0013, 0x0013, 1, 3, .s, false, 0⟩, -- RX_PRESET
  ⟨0x0014, 0x0014, 1, 6, .l, false, 3⟩, -- SD_THR
  ⟨0x0015, 0x0015, 1, 8, .l, false, 4⟩, -- LOS_TICKS
  ⟨0x0016, 0x0016, 1, 1, .s, false, 1⟩, -- AUTO_RELINK
  ⟨0x0017, 0x0017, 1, 1, .s, false, 0⟩, -- RETRAIN
  ⟨0x0018, 0x0018, 1, 8, .s, false, 20⟩, -- LT_TIMEOUT
  ⟨0x0019, 0x0019, 1, 1, .l, false, 0⟩, -- EQ_FREEZE
  ⟨0x0020, 0x0020, 1, 5, .ro, false, 0⟩, -- CTLE_PEAK
  ⟨0x0030, 0x003B, 1, 8, .ro, false, 0⟩, -- FFE_COEF
  ⟨0x003C, 0x003C, 1, 8, .ro, false, 0⟩, -- DFE_COEF
  ⟨0x0040, 0x0040, 1, 16, .ro, false, 0⟩, -- CDR_FREQ
  ⟨0x0041, 0x0041, 1, 8, .ro, false, 0⟩, -- EBUF_FILL
  ⟨0x0050, 0x0050, 1, 32, .ro, false, 0⟩, -- LOS_CNT
  ⟨0x0051, 0x0051, 1, 32, .ro, false, 0⟩, -- LOL_CNT
  ⟨0x0052, 0x0052, 1, 32, .ro, false, 0⟩, -- EBUF_CNT
  ⟨0x0053, 0x0053, 1, 32, .ro, false, 0⟩, -- LT_CNT
  ⟨0x0054, 0x0054, 1, 32, .ro, false, 0⟩, -- LT_FAIL_CNT
  ⟨0x0055, 0x0055, 1, 32, .ro, false, 0⟩] -- RELINK_CNT

/-- The fields of block HTX (R322). -/
def rowsHTX : List FieldRow := [
  ⟨0x0001, 0x0001, 1, 8, .ro, false, 0⟩, -- FLAGS
  ⟨0x0010, 0x0010, 1, 1, .k, false, 0⟩, -- OUT_POL
  ⟨0x0011, 0x0011, 1, 4, .s, false, 5⟩, -- SWING
  ⟨0x0012, 0x0012, 1, 1, .l, false, 0⟩, -- SQUELCH
  ⟨0x0013, 0x0013, 1, 1, .k, false, 0⟩, -- PRECODE
  ⟨0x0014, 0x0014, 1, 2, .s, false, 0⟩, -- LINE_LOSS_ACT
  ⟨0x0015, 0x0015, 1, 8, .s, false, 16⟩, -- LINE_OK_TICKS
  ⟨0x0016, 0x0016, 1, 3, .s, false, 1⟩, -- TX_PRESET
  ⟨0x0020, 0x0025, 1, 8, .ro, false, 0⟩, -- FIR_TAP0–FIR_TAP5
  ⟨0x0030, 0x0030, 1, 2, .ro, false, 0⟩, -- CLK_SRC
  ⟨0x0031, 0x0031, 1, 16, .ro, false, 0⟩, -- CLK_FREQ
  ⟨0x0040, 0x0040, 1, 32, .ro, false, 0⟩, -- LINE_LOSS_CNT
  ⟨0x0041, 0x0041, 1, 32, .ro, false, 0⟩] -- LINE_LOSS_TICKS

/-- The fields of block JNR (R322). -/
def rowsJNR : List FieldRow := [
  ⟨0x0000, 0x0000, 1, 3, .ro, false, 0⟩, -- STATE
  ⟨0x0001, 0x0001, 1, 8, .ro, false, 0⟩, -- FLAGS
  ⟨0x0002, 0x0002, 1, 16, .ro, false, 0⟩, -- RESTART_CNT
  ⟨0x0010, 0x0010, 1, 16, .ro, false, 0⟩, -- SCHED_SET_ID
  ⟨0x0011, 0x0030, 1, 32, .ro, false, 0⟩, -- SCHED
  ⟨0x0031, 0x0034, 1, 2, .ro, false, 0⟩, -- RG_DUTY
  ⟨0x0035, 0x004C, 1, 8, .ro, false, 0⟩, -- USER_GRANT
  ⟨0x0050, 0x0050, 1, 1, .s, false, 0⟩, -- DM1_RETAIN
  ⟨0x0051, 0x0051, 1, 16, .ro, false, 0⟩, -- LATE
  ⟨0x0060, 0x007F, 1, 32, .ro, false, 0⟩, -- OVR_CNT
  ⟨0x0080, 0x0080, 1, 8, .s, false, 8⟩, -- LATE_LIMIT
  ⟨0x0081, 0x0081, 1, 16, .ro, false, 0⟩, -- USER_REVERT_CNT
  ⟨0x0082, 0x0082, 1, 32, .ro, false, 0⟩, -- SANDBOX_CNT
  ⟨0x0083, 0x0083, 1, 32, .ro, false, 0⟩, -- DM_CORR
  ⟨0x0084, 0x0084, 1, 32, .ro, false, 0⟩, -- DM_UNCORR
  ⟨0x0085, 0x0085, 1, 32, .ro, false, 0⟩, -- DM_LOCK_CNT
  ⟨0x0090, 0x0090, 1, 32, .ro, false, 0⟩, -- PUBLISH_CNT
  ⟨0x0091, 0x0091, 1, 32, .ro, false, 0⟩, -- PUBLISH_DISPLACED
  ⟨0x0092, 0x0092, 1, 32, .ro, false, 0⟩, -- PUBLISH_STALE
  ⟨0x0093, 0x0093, 1, 32, .ro, false, 0⟩, -- PUBLISH_SUPPRESSED
  ⟨0x0094, 0x0094, 1, 32, .ro, false, 0⟩, -- PUBLISH_BUSY
  ⟨0x0095, 0x0095, 1, 32, .ro, false, 0⟩, -- PUBLISH_LIMIT
  ⟨0x00A0, 0x00A0, 1, 32, .ro, false, 0⟩, -- CAP_STALL
  ⟨0x00A1, 0x00A1, 1, 32, .ro, false, 0⟩, -- CAP_POISON
  ⟨0x00A2, 0x00A2, 1, 32, .ro, false, 0⟩, -- CAP_TRUNC
  ⟨0x00B0, 0x00B0, 1, 9, .s, false, 0⟩, -- COUNTER_GRANT
  ⟨0x00B1, 0x00B1, 1, 64, .ro, false, 0⟩, -- PC_CYCLE
  ⟨0x00C0, 0x00C7, 1, 32, .l, false, 0⟩, -- PC_CTRL0–7
  ⟨0x00C8, 0x00CF, 1, 32, .l, false, 0⟩, -- PC_VAL0–7
  ⟨0x00D0, 0x00D3, 1, 64, .ro, false, 0⟩] -- PC_PAIR0–3

/-- The fields of block HK (R322). -/
def rowsHK : List FieldRow := [
  ⟨0x0000, 0x0000, 1, 2, .ro, false, 0⟩, -- STATE
  ⟨0x0001, 0x0001, 1, 8, .ro, false, 0⟩, -- FLAGS
  ⟨0x0010, 0x0010, 1, 7, .s, false, 1⟩, -- SEQ_LEN
  ⟨0x0011, 0x0011, 1, 3, .s, false, 0⟩, -- SEQ_TRIG
  ⟨0x0012, 0x0012, 1, 16, .s, false, 1000⟩, -- SEQ_PERIOD
  ⟨0x0013, 0x0013, 1, 16, .s, false, 1000⟩, -- SEQ_TICKS
  ⟨0x0014, 0x0014, 1, 1, .l, false, 0⟩, -- SEQ_GO
  ⟨0x0015, 0x0015, 1, 32, .ro, false, 0⟩, -- TRIG_OVERLAP
  ⟨0x0016, 0x0016, 1, 32, .ro, false, 0⟩, -- PASS_CNT
  ⟨0x0017, 0x0017, 1, 16, .s, false, 0⟩, -- WIN_TRIG_MASK
  ⟨0x0018, 0x0018, 1, 5, .s, false, 0⟩, -- RB_SEL
  ⟨0x0020, 0x005F, 1, 32, .s, false, 0⟩, -- STEP
  ⟨0x0060, 0x009F, 1, 16, .ro, false, 0⟩, -- RESULT
  ⟨0x00A0, 0x00A7, 1, 12, .s, false, 0⟩, -- RING_BASE
  ⟨0x00A8, 0x00AF, 1, 13, .s, false, 0⟩, -- RING_LEN
  ⟨0x00B0, 0x00B7, 1, 32, .ro, false, 0⟩, -- RING_WPOS
  ⟨0x00B8, 0x00BF, 1, 32, .ro, false, 0⟩, -- RING_MARK
  ⟨0x00C0, 0x00C7, 1, 2, .ro, false, 0⟩, -- RING_FLAGS
  ⟨0x00C8, 0x00C8, 1, 8, .l, false, 0⟩, -- RING_MARK_SET
  ⟨0x00C9, 0x00C9, 1, 32, .ro, false, 0⟩, -- OVERTAKEN_CNT
  ⟨0x0100, 0x0107, 1, 3, .s, false, 0⟩, -- FILT_PRESET
  ⟨0x0108, 0x010F, 1, 8, .s, false, 0⟩, -- FILT_CFG
  ⟨0x0110, 0x0117, 1, 4, .s, false, 0⟩, -- FILT_RING
  ⟨0x0118, 0x011F, 1, 16, .s, false, 0⟩, -- FILT_SETTLE
  ⟨0x0120, 0x016F, 1, 20, .s, false, 0⟩, -- FILT_COEF
  ⟨0x0170, 0x0177, 1, 16, .ro, false, 0⟩, -- FILT_OUT
  ⟨0x0178, 0x017F, 1, 2, .ro, false, 0⟩, -- FILT_STAT
  ⟨0x0180, 0x018F, 1, 32, .s, false, 0⟩, -- WIN_CFG
  ⟨0x0190, 0x019F, 1, 16, .s, false, 0⟩, -- WIN_LO
  ⟨0x01A0, 0x01AF, 1, 16, .s, false, 65535⟩, -- WIN_HI
  ⟨0x01B0, 0x01B0, 1, 16, .ro, false, 0⟩, -- WIN_STAT
  ⟨0x01B1, 0x01B1, 1, 16, .l, false, 0⟩, -- WIN_CLR
  ⟨0x01C0, 0x01CF, 1, 32, .ro, false, 0⟩, -- WIN_CNT
  ⟨0x01D0, 0x01DF, 1, 24, .s, false, 0⟩, -- WIN_SAFE
  ⟨0x0200, 0x021F, 1, 16, .l, false, 2048⟩, -- SYSCAL_OFS
  ⟨0x0220, 0x023F, 1, 16, .l, false, 16384⟩, -- SYSCAL_GAIN
  ⟨0x0800, 0x0FFF, 1, 32, .ro, false, 0⟩] -- RING_DATA

/-- The fields of block BDAC (R322). -/
def rowsBDAC : List FieldRow := [
  ⟨0x0001, 0x0001, 1, 8, .ro, false, 0⟩, -- FLAGS
  ⟨0x0002, 0x0002, 1, 24, .ro, false, 0⟩, -- HOLD
  ⟨0x0003, 0x0003, 1, 24, .l, false, 0⟩, -- RELEASE
  ⟨0x0004, 0x0004, 1, 24, .ro, false, 0⟩, -- SC_STAT
  ⟨0x0005, 0x0005, 1, 24, .l, false, 0⟩, -- SC_CLR
  ⟨0x0006, 0x0006, 1, 24, .s, false, 0⟩, -- SC_SAFE
  ⟨0x0100, 0x0117, 1, 12, .l, false, 0⟩, -- CODE
  ⟨0x0120, 0x0137, 1, 1, .s, false, 0⟩, -- SPAN
  ⟨0x0140, 0x0157, 1, 8, .s, false, 1⟩, -- SLEW_STEP
  ⟨0x0160, 0x0177, 1, 4, .s, false, 0⟩, -- SLEW_DIV
  ⟨0x0180, 0x0197, 1, 12, .s, false, 2400⟩, -- VMAX
  ⟨0x01A0, 0x01B7, 1, 12, .ro, false, 0⟩, -- OUT_CODE
  ⟨0x01C0, 0x01D7, 1, 1, .ro, false, 0⟩, -- OUT_SPAN
  ⟨0x0200, 0x0217, 1, 32, .s, false, 0⟩, -- LOOP_CFG
  ⟨0x0220, 0x0237, 1, 16, .l, false, 2048⟩, -- LOOP_TARGET
  ⟨0x0240, 0x0257, 1, 12, .s, false, 0⟩, -- LOOP_MIN
  ⟨0x0260, 0x0277, 1, 12, .s, false, 0⟩, -- LOOP_MAX
  ⟨0x0280, 0x0297, 1, 16, .ro, false, 0⟩] -- SC_CNT

/-- The fields of block THM (R322). -/
def rowsTHM : List FieldRow := [
  ⟨0x0000, 0x0000, 1, 2, .ro, true, 0⟩, -- STATE
  ⟨0x0001, 0x0001, 1, 8, .ro, false, 0⟩, -- FLAGS
  ⟨0x0010, 0x0010, 1, 1, .s, false, 0⟩, -- MODE
  ⟨0x0011, 0x0011, 1, 8, .s, false, 95⟩, -- WARN_THR
  ⟨0x0012, 0x0012, 1, 8, .s, false, 100⟩, -- THROT_THR
  ⟨0x0013, 0x0013, 1, 8, .s, false, 110⟩, -- SHUT_THR
  ⟨0x0014, 0x0014, 1, 3, .s, false, 3⟩, -- HYST
  ⟨0x0015, 0x0015, 1, 4, .s, false, 5⟩, -- NEAR
  ⟨0x0016, 0x0016, 1, 8, .s, false, 20⟩, -- RATE_THR
  ⟨0x0017, 0x0017, 1, 8, .s, false, 5⟩, -- RATE_STEP
  ⟨0x0018, 0x0018, 1, 8, .s, false, 85⟩, -- RATE_FLOOR
  ⟨0x0019, 0x0019, 1, 4, .s, false, 11⟩, -- THROT_MAX
  ⟨0x0020, 0x002F, 1, 16, .ro, false, 0⟩, -- SENSOR
  ⟨0x0030, 0x0030, 1, 16, .ro, false, 0⟩, -- SENSOR_FAIL
  ⟨0x0040, 0x0043, 1, 16, .ro, false, 0⟩, -- RG_TEMP
  ⟨0x0044, 0x0047, 1, 16, .ro, false, 0⟩, -- RG_RATE
  ⟨0x0048, 0x004B, 1, 4, .ro, false, 0⟩, -- RG_LEVEL
  ⟨0x0050, 0x0051, 1, 1, .ro, false, 0⟩, -- PERIOD
  ⟨0x0052, 0x0052, 1, 16, .ro, true, 0⟩, -- TJ_MAX
  ⟨0x0053, 0x0053, 1, 16, .ro, true, 0⟩, -- TJ_PEAK
  ⟨0x0060, 0x0060, 1, 32, .ro, false, 0⟩, -- WARN_CNT
  ⟨0x0061, 0x0061, 1, 32, .ro, false, 0⟩, -- THROT_CNT
  ⟨0x0062, 0x0062, 1, 32, .ro, false, 0⟩, -- STEP_CNT
  ⟨0x0063, 0x0063, 1, 32, .ro, false, 0⟩, -- STEP_SKIP
  ⟨0x0064, 0x0064, 1, 16, .ro, true, 0⟩, -- SHUT_CNT
  ⟨0x0068, 0x006B, 1, 32, .ro, false, 0⟩] -- RG_THROT_TICKS

/-- The fields of block PWR (R322). -/
def rowsPWR : List FieldRow := [
  ⟨0x0000, 0x0000, 1, 2, .ro, true, 0⟩, -- STATE
  ⟨0x0001, 0x0001, 1, 8, .ro, true, 0⟩, -- FLAGS
  ⟨0x0002, 0x0002, 1, 8, .ro, true, 0⟩, -- WAKE_SRC
  ⟨0x0010, 0x0010, 1, 8, .s, false, 255⟩, -- WAKE_LINE_MASK
  ⟨0x0011, 0x0011, 1, 16, .s, false, 65535⟩, -- WAKE_HOST_MASK
  ⟨0x0012, 0x0012, 1, 3, .s, false, 2⟩, -- WAKE_RETRIES
  ⟨0x0013, 0x0013, 1, 8, .s, false, 10⟩, -- WAKE_RETRY_MS
  ⟨0x0014, 0x0014, 1, 6, .s, false, 0⟩, -- RET_VCORE
  ⟨0x0015, 0x0015, 1, 4, .s, false, 0⟩, -- AVS_RAIL
  ⟨0x0020, 0x0020, 1, 16, .ro, false, 0⟩, -- VCORE_TARGET
  ⟨0x0021, 0x0021, 1, 16, .ro, false, 0⟩, -- VCORE_MEAS
  ⟨0x0022, 0x0022, 1, 32, .ro, false, 0⟩, -- AVS_REQ_CNT
  ⟨0x0023, 0x0023, 1, 16, .ro, false, 0⟩, -- AVS_FAULT_CNT
  ⟨0x0030, 0x0032, 1, 32, .ro, true, 0⟩, -- ENTRY_CNT
  ⟨0x0033, 0x0033, 1, 32, .ro, true, 0⟩, -- WAKE_CNT
  ⟨0x0034, 0x0034, 1, 32, .ro, true, 0⟩, -- WAKE_ABORT_CNT
  ⟨0x0035, 0x0035, 1, 32, .ro, true, 0⟩, -- LAST_WAKE_US
  ⟨0x0036, 0x0036, 1, 24, .ro, true, 0⟩, -- WAKE_LANES
  ⟨0x0040, 0x0040, 1, 16, .ro, true, 0⟩, -- SWITCH_CNT
  ⟨0x0041, 0x0041, 1, 48, .ro, true, 0⟩, -- MAIN_LOSS_TICKNO
  ⟨0x0042, 0x0042, 1, 16, .ro, true, 0⟩, -- SUPPLY_FAULT_CNT
  ⟨0x0100, 0x015F, 1, 2, .ro, false, 0⟩, -- DOM_STATE
  ⟨0x0180, 0x01AF, 1, 2, .ro, false, 0⟩, -- CLK_STATE
  ⟨0x0200, 0x023F, 1, 16, .ro, true, 0⟩] -- REFUSE_CNT

/-- The fields of block RST (R322). -/
def rowsRST : List FieldRow := [
  ⟨0x0001, 0x0001, 1, 8, .ro, true, 0⟩, -- FLAGS
  ⟨0x0002, 0x0002, 1, 3, .ro, true, 1⟩, -- CAUSE
  ⟨0x0003, 0x0003, 1, 3, .l, false, 0⟩, -- CAUSE_CLR
  ⟨0x0004, 0x0004, 1, 2, .ro, true, 0⟩, -- TRIM_ATTEMPTS
  ⟨0x0005, 0x0005, 1, 4, .ro, true, 0⟩, -- BOOT_STEP
  ⟨0x0010, 0x0010, 1, 2, .ro, false, 0⟩, -- FW_COPY
  ⟨0x0011, 0x0012, 1, 32, .ro, false, 0⟩, -- FW_SEQ_A, FW_SEQ_B
  ⟨0x0013, 0x0014, 1, 32, .ro, false, 0⟩, -- CFG_SEQ_A, CFG_SEQ_B
  ⟨0x0015, 0x0016, 1, 32, .ro, false, 0⟩, -- BND_SEQ_A, BND_SEQ_B
  ⟨0x0017, 0x0017, 1, 32, .ro, true, 0⟩, -- HLTH_SEQ
  ⟨0x0018, 0x0019, 1, 32, .ro, false, 0⟩, -- HLTH_SEQ_A, HLTH_SEQ_B
  ⟨0x001B, 0x001B, 1, 6, .ro, false, 0⟩, -- SVN_FLOOR
  ⟨0x001C, 0x001C, 1, 8, .ro, false, 0⟩, -- KEY_STATE
  ⟨0x0020, 0x0020, 1, 8, .s, false, 100⟩, -- WDT_MS
  ⟨0x0021, 0x0021, 1, 4, .s, false, 4⟩, -- WDT_LIMIT
  ⟨0x0022, 0x0022, 1, 32, .ro, true, 0⟩, -- WDT_CNT
  ⟨0x0023, 0x0023, 1, 32, .ro, true, 0⟩, -- WARM_CNT
  ⟨0x0024, 0x0024, 1, 32, .ro, true, 0⟩, -- COLD_CNT
  ⟨0x0025, 0x0025, 1, 16, .ro, true, 0⟩, -- ACTIVATE_CNT
  ⟨0x0026, 0x0026, 1, 16, .ro, false, 0⟩, -- ACT_PAUSE_MS
  ⟨0x0027, 0x0027, 1, 24, .ro, true, 0⟩, -- WARM_LANES
  ⟨0x0030, 0x0030, 1, 48, .ro, true, 0⟩, -- ST_TICKNO
  ⟨0x0031, 0x0031, 1, 16, .ro, true, 0⟩, -- ST_TESTED
  ⟨0x0032, 0x0032, 1, 16, .ro, true, 0⟩, -- ST_FAILED
  ⟨0x0033, 0x0033, 1, 8, .ro, true, 0⟩, -- ST_SKIPPED
  ⟨0x0034, 0x0034, 1, 4, .ro, true, 0⟩, -- PAIR_USABLE
  ⟨0x0035, 0x0036, 1, 32, .ro, false, 0⟩, -- SIMD_HEALTH
  ⟨0x0040, 0x0057, 1, 32, .ro, false, 0⟩] -- ATT_PUB

/-- The fields of block TEN (R322). -/
def rowsTEN : List FieldRow := [
  ⟨0x0000, 0x0000, 1, 3, .ro, false, 0⟩, -- STATE
  ⟨0x0001, 0x0001, 1, 8, .ro, false, 0⟩, -- FLAGS
  ⟨0x0002, 0x0002, 1, 3, .ro, false, 0⟩, -- CHAIN_STATE
  ⟨0x0003, 0x0003, 1, 5, .ro, false, 0⟩, -- ADDR
  ⟨0x0004, 0x0004, 1, 5, .ro, false, 0⟩, -- CHAIN_LEN
  ⟨0x0010, 0x0010, 1, 1, .s, false, 0⟩, -- EN
  ⟨0x0011, 0x0011, 1, 16, .s, false, 0⟩, -- ASYM_COMP
  ⟨0x0012, 0x0012, 1, 1, .s, false, 0⟩, -- RESYNC_POL
  ⟨0x0013, 0x0013, 1, 1, .l, false, 0⟩, -- RESYNC_GO
  ⟨0x0014, 0x0014, 1, 10, .s, false, 1023⟩, -- SLEW_MAX
  ⟨0x0015, 0x0015, 1, 8, .s, false, 1⟩, -- JOIN_WAIT_MS
  ⟨0x0016, 0x0016, 1, 8, .s, false, 50⟩, -- JOIN_WAIT_COLD_MS
  ⟨0x0017, 0x0017, 1, 8, .s, false, 5⟩, -- FWD_TIMEOUT_MS
  ⟨0x0020, 0x0020, 1, 2, .s, false, 0⟩, -- TSYNC_MODE
  ⟨0x0021, 0x0021, 1, 5, .s, false, 10⟩, -- TSYNC_DIV
  ⟨0x0030, 0x0030, 1, 24, .ro, false, 0⟩, -- LINK_DELAY
  ⟨0x0031, 0x0031, 1, 24, .ro, false, 0⟩, -- RTT
  ⟨0x0032, 0x0032, 1, 32, .ro, false, 0⟩, -- ALIGN_ERR
  ⟨0x0040, 0x0040, 1, 32, .ro, false, 0⟩, -- TRAIN_CNT
  ⟨0x0041, 0x0041, 1, 32, .ro, false, 0⟩, -- TRAIN_FAIL_CNT
  ⟨0x0042, 0x0042, 1, 32, .ro, false, 0⟩, -- LINK_DOWN_CNT
  ⟨0x0043, 0x0043, 1, 32, .ro, false, 0⟩, -- MSG_ERR_CNT
  ⟨0x0044, 0x0044, 1, 32, .ro, false, 0⟩, -- FWD_CNT
  ⟨0x0045, 0x0045, 1, 32, .ro, false, 0⟩, -- FWD_TIMEOUT_CNT
  ⟨0x0046, 0x0046, 1, 16, .ro, false, 0⟩, -- RESYNC_CNT
  ⟨0x0047, 0x0047, 1, 16, .ro, false, 0⟩, -- SLEW_CNT
  ⟨0x0048, 0x0048, 1, 32, .ro, false, 0⟩, -- TICK_ADJ_CNT
  ⟨0x0049, 0x0049, 1, 32, .ro, false, 0⟩, -- TSYNC_REALIGN_CNT
  ⟨0x0100, 0x0100, 1, 32, .ro, false, 0⟩, -- PRESENT
  ⟨0x0101, 0x0101, 1, 32, .ro, false, 0⟩, -- ALARM
  ⟨0x0102, 0x0102, 1, 32, .l, false, 0⟩, -- ALARM_CLR
  ⟨0x0103, 0x0103, 1, 32, .ro, false, 0⟩, -- ASLEEP
  ⟨0x0104, 0x0104, 1, 32, .ro, false, 0⟩, -- TELEM_LATE
  ⟨0x0108, 0x01FF, 1, 64, .ro, false, 0⟩] -- RAFTER_STATUS

/-- The fields of block OBS (R322). -/
def rowsOBS : List FieldRow := [
  ⟨0x0001, 0x0001, 1, 8, .ro, true, 0⟩, -- FLAGS
  ⟨0x0002, 0x0002, 1, 32, .ro, false, 0⟩, -- SNAP_SEQ
  ⟨0x0003, 0x0003, 1, 48, .ro, false, 0⟩, -- SNAP_TICKNO
  ⟨0x0010, 0x0010, 1, 32, .ro, true, 0⟩, -- LOG_SEQ
  ⟨0x0011, 0x0011, 1, 32, .ro, true, 0⟩, -- LOG_OLDEST
  ⟨0x0012, 0x0012, 1, 32, .ro, true, 0⟩, -- LOG_SUPPR_CNT
  ⟨0x0013, 0x0013, 1, 16, .ro, true, 0⟩, -- LOG_DISCARD_CNT
  ⟨0x0020, 0x0020, 1, 4, .ro, true, 0⟩, -- IRQ_STAT
  ⟨0x0021, 0x0021, 1, 4, .s, true, 15⟩, -- IRQ_MASK
  ⟨0x0022, 0x0022, 1, 4, .l, false, 0⟩, -- IRQ_CLR
  ⟨0x0023, 0x0023, 1, 6, .s, true, 63⟩, -- IRQ_LEVEL_MASK
  ⟨0x0024, 0x0024, 1, 24, .ro, true, 0⟩, -- LANE_CHG
  ⟨0x0025, 0x0025, 1, 24, .l, false, 0⟩, -- LANE_CHG_CLR
  ⟨0x0026, 0x0026, 1, 6, .ro, true, 0⟩, -- FAULT_STAT
  ⟨0x0027, 0x0027, 1, 6, .l, false, 0⟩, -- FAULT_CLR
  ⟨0x0030, 0x0037, 1, 2, .ro, false, 0⟩, -- CAP_STATE
  ⟨0x0038, 0x003F, 1, 4, .ro, false, 0⟩, -- CAP_FLAGS
  ⟨0x0040, 0x0047, 1, 32, .ro, false, 0⟩, -- CAP_WPOS
  ⟨0x0048, 0x004F, 1, 32, .ro, false, 0⟩, -- CAP_TRIG_POS
  ⟨0x0050, 0x0057, 1, 32, .ro, false, 0⟩, -- CAP_MARK
  ⟨0x0058, 0x0058, 1, 8, .l, false, 0⟩, -- CAP_MARK_SET
  ⟨0x0059, 0x0059, 1, 32, .ro, false, 0⟩, -- CAP_TRIG_IGNORED
  ⟨0x005A, 0x005A, 1, 32, .ro, false, 0⟩, -- CAP_OVERTAKEN_CNT
  ⟨0x005B, 0x005B, 1, 32, .ro, false, 0⟩, -- CAP_UNCORR
  ⟨0x0060, 0x0067, 1, 32, .s, false, 0⟩, -- HIST_CFG
  ⟨0x0068, 0x006F, 1, 16, .s, false, 1024⟩, -- HIST_TICKS
  ⟨0x0070, 0x0077, 1, 32, .ro, false, 0⟩, -- HIST_SEQ
  ⟨0x0078, 0x0078, 1, 8, .l, false, 0⟩, -- HIST_GO
  ⟨0x0100, 0x0100, 8, 32, .ro, false, 0⟩, -- QSEQ
  ⟨0x0101, 0x0101, 8, 48, .ro, false, 0⟩, -- QTICKNO
  ⟨0x0102, 0x0102, 8, 8, .ro, false, 0⟩, -- QFLAGS
  ⟨0x0103, 0x0103, 8, 16, .ro, false, 32768⟩, -- SNR
  ⟨0x0104, 0x0104, 8, 16, .ro, false, 32768⟩, -- BER_LOG
  ⟨0x0105, 0x0108, 8, 16, .ro, false, 32768⟩, -- LEVEL_MEAN0–3
  ⟨0x0109, 0x010B, 8, 16, .ro, false, 32768⟩, -- EYE0–2
  ⟨0x010C, 0x010C, 8, 2, .ro, false, 0⟩, -- LLR_IDX
  ⟨0x0200, 0x0200, 16, 32, .ro, false, 0⟩, -- HQSEQ
  ⟨0x0201, 0x0201, 16, 8, .ro, false, 0⟩, -- HQFLAGS
  ⟨0x0202, 0x0202, 16, 16, .ro, false, 32768⟩, -- HSNR
  ⟨0x0203, 0x0203, 16, 16, .ro, false, 32768⟩, -- HEYE_MIN
  ⟨0x0300, 0x04FF, 1, 32, .ro, false, 0⟩] -- HIST_BIN

/-- The field rows of a block by its code (Table 11-1). -/
def blockRows (blk : Nat) : List FieldRow :=
  match blk with
  | 0x01 => rowsDEV
  | 0x10 => rowsLRX
  | 0x11 => rowsLTX
  | 0x12 => rowsCTX
  | 0x13 => rowsFEC
  | 0x20 => rowsHRX
  | 0x21 => rowsHTX
  | 0x30 => rowsJNR
  | 0x40 => rowsHK
  | 0x41 => rowsBDAC
  | 0x42 => rowsTHM
  | 0x50 => rowsPWR
  | 0x51 => rowsRST
  | 0x60 => rowsTEN
  | 0x70 => rowsOBS
  | _ => []

/-- The number of instances of a block (Table 0-7). -/
def blockInstances (blk : Nat) : Nat :=
  match blk with
  | 0x10 | 0x11 | 0x12 | 0x13 => 8
  | 0x20 | 0x21 => 16
  | 0x30 | 0x60 => 2
  | 0x01 | 0x40 | 0x41 | 0x42 | 0x50 | 0x51 | 0x70 => 1
  | _ => 0

/-- The lane-indexed blocks, which instance 0xFF addresses as a whole (R18). -/
def laneIndexed (blk : Nat) : Bool :=
  decide (blk = 0x10 ∨ blk = 0x11 ∨ blk = 0x12 ∨ blk = 0x13 ∨ blk = 0x20 ∨ blk = 0x21)

/-- Fields of block TEN that exist on one port only (Table 16-8): `up` on instance 0, `down` on instance 1. -/
def tenUp (off : Nat) : Bool :=
  decide (off = 0x0002 ∨ off = 0x0003 ∨ (0x0011 ≤ off ∧ off ≤ 0x0016) ∨ off = 0x0020 ∨ off = 0x0021 ∨
    (0x0030 ≤ off ∧ off ≤ 0x0032) ∨ (0x0046 ≤ off ∧ off ≤ 0x0049))
def tenDown (off : Nat) : Bool := decide (off = 0x0004 ∨ off = 0x0017 ∨ off = 0x0044 ∨ off = 0x0045 ∨ 0x0100 ≤ off)

/-- The field row of an address, none where the address is reserved (R322). -/
def fieldRow (a : Nat) : Option FieldRow :=
  if instOf a < blockInstances (blkOf a) ∧
      ¬ (blkOf a = 0x60 ∧ ((instOf a = 1 ∧ tenUp (offOf a)) ∨ (instOf a = 0 ∧ tenDown (offOf a)))) then
    (blockRows (blkOf a)).find? (·.covers (offOf a))
  else none

/-- The width of a field in bits (R324); 0 where no field stands at the address. -/
def fieldWidth (a : Nat) : Nat :=
  match fieldRow a with
  | some r => r.width
  | none => 0

namespace DEV
abbrev STEPPING : Nat := fld 0x01 0 0x0000
abbrev PACKAGE : Nat := fld 0x01 0 0x0001
abbrev SERIAL : Nat := fld 0x01 0 0x0002
abbrev ROLE : Nat := fld 0x01 0 0x0003
abbrev BOOT_SRC : Nat := fld 0x01 0 0x0004
abbrev SERVING_DIE : Nat := fld 0x01 0 0x0005
abbrev TICKNO : Nat := fld 0x01 0 0x0006
abbrev CFG_GEN0 : Nat := fld 0x01 0 0x0007
abbrev CFG_GEN1 : Nat := fld 0x01 0 0x0008
abbrev SPLIT : Nat := fld 0x01 0 0x0010
abbrev RATE_MODE0 : Nat := fld 0x01 0 0x0011
abbrev RATE_MODE1 : Nat := fld 0x01 0 0x0012
abbrev FEC_MODE0 : Nat := fld 0x01 0 0x0013
abbrev FEC_MODE1 : Nat := fld 0x01 0 0x0014
abbrev I2C_ADDR : Nat := fld 0x01 0 0x0020
abbrev FW_SEQ : Nat := fld 0x01 0 0x0030
abbrev CFG_SEQ : Nat := fld 0x01 0 0x0031
abbrev CFG_COPY : Nat := fld 0x01 0 0x0032
abbrev BUNDLE_SEQ : Nat := fld 0x01 0 0x0033
abbrev BUNDLE_STAGED : Nat := fld 0x01 0 0x0034
abbrev BOOT_COMMIT : Nat := fld 0x01 0 0x0035
abbrev MC_RESTART_CNT : Nat := fld 0x01 0 0x0040
abbrev CMD_DROP_CNT : Nat := fld 0x01 0 0x0041
abbrev STAGED0 : Nat := fld 0x01 0 0x0042
abbrev STAGED1 : Nat := fld 0x01 0 0x0043
abbrev STAGED_LOST_CNT : Nat := fld 0x01 0 0x0044
abbrev REF_STATE : Nat := fld 0x01 0 0x0100
abbrev VREF_MEAS : Nat := fld 0x01 0 0x0101
abbrev CALSRC_FAIL : Nat := fld 0x01 0 0x0102
abbrev TXSENSE_FAIL : Nat := fld 0x01 0 0x0103
abbrev RXCAL_VALID_L400 : Nat := fld 0x01 0 0x0104
abbrev RXCAL_VALID_L200 : Nat := fld 0x01 0 0x0105
abbrev TXCAL_VALID_L400 : Nat := fld 0x01 0 0x0106
abbrev TXCAL_VALID_L200 : Nat := fld 0x01 0 0x0107
abbrev STALE_TICKS : Nat := fld 0x01 0 0x0110
abbrev QUAL_WIN : Nat := fld 0x01 0 0x0111
abbrev CAL_RUN_CNT : Nat := fld 0x01 0 0x0120
abbrev CAL_BG_CNT : Nat := fld 0x01 0 0x0121
abbrev CAL_DEG_CNT : Nat := fld 0x01 0 0x0122
abbrev STALE_CNT : Nat := fld 0x01 0 0x0123
end DEV

namespace LRX
abbrev STATE (n : Nat) : Nat := fld 0x10 n 0x0000
abbrev FLAGS (n : Nat) : Nat := fld 0x10 n 0x0001
abbrev CAL_METHOD (n : Nat) : Nat := fld 0x10 n 0x0002
abbrev INPUT_CPL (n : Nat) : Nat := fld 0x10 n 0x0010
abbrev INPUT_POL (n : Nat) : Nat := fld 0x10 n 0x0011
abbrev CTLE_PEAK (n : Nat) : Nat := fld 0x10 n 0x0012
abbrev VGA_GAIN (n : Nat) : Nat := fld 0x10 n 0x0013
abbrev SD_THR (n : Nat) : Nat := fld 0x10 n 0x0014
abbrev LOS_TICKS (n : Nat) : Nat := fld 0x10 n 0x0015
abbrev AUTO_RELINK (n : Nat) : Nat := fld 0x10 n 0x0016
abbrev FFE_TAPS (n : Nat) : Nat := fld 0x10 n 0x0020
abbrev FFE_MAIN (n : Nat) : Nat := fld 0x10 n 0x0021
abbrev FFE_FREEZE (n : Nat) : Nat := fld 0x10 n 0x0022
abbrev FFE_COEF (n k : Nat) : Nat := fld 0x10 n (0x0030 + k)
abbrev CTX_EN (n : Nat) : Nat := fld 0x10 n 0x0060
abbrev CTX_CLASS_CEIL (n : Nat) : Nat := fld 0x10 n 0x0061
abbrev LLR_SET_ID (n : Nat) : Nat := fld 0x10 n 0x0070
abbrev TR_ROW (n : Nat) : Nat := fld 0x10 n 0x0080
abbrev TR_FREQ (n : Nat) : Nat := fld 0x10 n 0x0081
abbrev TR_LOCK_THR (n : Nat) : Nat := fld 0x10 n 0x0082
abbrev TR_LOCK_METRIC (n : Nat) : Nat := fld 0x10 n 0x0083
abbrev SLICE_HEALTH_LO (n : Nat) : Nat := fld 0x10 n 0x0090
abbrev SLICE_HEALTH_HI (n : Nat) : Nat := fld 0x10 n 0x0091
abbrev SLICE_MAP (n k : Nat) : Nat := fld 0x10 n (0x00A0 + k)
abbrev CLIP_CNT (n : Nat) : Nat := fld 0x10 n 0x00E0
abbrev CLIP_THR (n : Nat) : Nat := fld 0x10 n 0x00E1
abbrev WORDS (n : Nat) : Nat := fld 0x10 n 0x00E2
abbrev RELINK_CNT (n : Nat) : Nat := fld 0x10 n 0x00F0
abbrev RELINK_FALLBACK (n : Nat) : Nat := fld 0x10 n 0x00F1
abbrev LOS_CNT (n : Nat) : Nat := fld 0x10 n 0x00F2
abbrev LOL_CNT (n : Nat) : Nat := fld 0x10 n 0x00F3
end LRX

namespace LTX
abbrev STATE (n : Nat) : Nat := fld 0x11 n 0x0000
abbrev FLAGS (n : Nat) : Nat := fld 0x11 n 0x0001
abbrev OUT_POL (n : Nat) : Nat := fld 0x11 n 0x0010
abbrev SWING (n : Nat) : Nat := fld 0x11 n 0x0011
abbrev SQUELCH (n : Nat) : Nat := fld 0x11 n 0x0012
abbrev SHP_EN (n : Nat) : Nat := fld 0x11 n 0x0020
abbrev SHP_SET_ID (n : Nat) : Nat := fld 0x11 n 0x0021
abbrev FIR_MAIN (n : Nat) : Nat := fld 0x11 n 0x0030
abbrev FIR_TAP (n k : Nat) : Nat := fld 0x11 n (0x0040 + k)
abbrev SUBDAC_TRIM (n k : Nat) : Nat := fld 0x11 n (0x0050 + k)
abbrev SUBDAC_HEALTH (n : Nat) : Nat := fld 0x11 n 0x0054
abbrev SAT_CNT (n : Nat) : Nat := fld 0x11 n 0x0060
abbrev CLK_SRC (n : Nat) : Nat := fld 0x11 n 0x0061
abbrev CLK_FREQ (n : Nat) : Nat := fld 0x11 n 0x0062
abbrev FILL_CNT (n : Nat) : Nat := fld 0x11 n 0x0070
abbrev SQUELCH_CNT (n : Nat) : Nat := fld 0x11 n 0x0071
end LTX

namespace CTX
abbrev FLAGS (n : Nat) : Nat := fld 0x12 n 0x0001
abbrev ACT_BANK (n : Nat) : Nat := fld 0x12 n 0x0002
abbrev SHADOW_STATE (n : Nat) : Nat := fld 0x12 n 0x0003
abbrev SET_ID (n : Nat) : Nat := fld 0x12 n 0x0010
abbrev EPOCH (n : Nat) : Nat := fld 0x12 n 0x0011
abbrev TEMP (n : Nat) : Nat := fld 0x12 n 0x0012
abbrev SHP_EPOCH (n : Nat) : Nat := fld 0x12 n 0x0015
abbrev SHP_TEMP (n : Nat) : Nat := fld 0x12 n 0x0016
abbrev REPL_MAP (n k : Nat) : Nat := fld 0x12 n (0x0020 + k)
abbrev SHP_MAP (n k : Nat) : Nat := fld 0x12 n (0x0060 + k)
abbrev REPL_HEALTH_LO (n : Nat) : Nat := fld 0x12 n 0x00A0
abbrev REPL_HEALTH_HI (n : Nat) : Nat := fld 0x12 n 0x00A1
abbrev SHP_HEALTH_LO (n : Nat) : Nat := fld 0x12 n 0x00A2
abbrev SHP_HEALTH_HI (n : Nat) : Nat := fld 0x12 n 0x00A3
abbrev REPL_READY_LO (n : Nat) : Nat := fld 0x12 n 0x00A4
abbrev REPL_READY_HI (n : Nat) : Nat := fld 0x12 n 0x00A5
abbrev SHP_READY_LO (n : Nat) : Nat := fld 0x12 n 0x00A6
abbrev SHP_READY_HI (n : Nat) : Nat := fld 0x12 n 0x00A7
abbrev REMAP (n k : Nat) : Nat := fld 0x12 n (0x00B0 + k)
abbrev TRACK (n k : Nat) : Nat := fld 0x12 n (0x00C0 + k)
abbrev RETAIN (n : Nat) : Nat := fld 0x12 n 0x00D0
abbrev CORR_EVENTS (n : Nat) : Nat := fld 0x12 n 0x00E0
abbrev UNCORR_EVENTS (n : Nat) : Nat := fld 0x12 n 0x00E1
abbrev POISON_CNT (n : Nat) : Nat := fld 0x12 n 0x00E2
abbrev REWRITE_CNT (n : Nat) : Nat := fld 0x12 n 0x00E3
abbrev REFRESH_CNT (n : Nat) : Nat := fld 0x12 n 0x00E4
abbrev REMAP_CNT (n : Nat) : Nat := fld 0x12 n 0x00E5
abbrev RETIRE_CNT (n : Nat) : Nat := fld 0x12 n 0x00E6
abbrev TRACK_OVF (n : Nat) : Nat := fld 0x12 n 0x00E7
abbrev SCRUB_SWEEPS (n : Nat) : Nat := fld 0x12 n 0x00E8
abbrev PUBLISH_HELD (n : Nat) : Nat := fld 0x12 n 0x00E9
end CTX

namespace FEC
abbrev FRAME_STATE (n : Nat) : Nat := fld 0x13 n 0x0000
abbrev FLAGS (n : Nat) : Nat := fld 0x13 n 0x0001
abbrev SCHED_SET_ID (n : Nat) : Nat := fld 0x13 n 0x0010
abbrev SCHED (n k : Nat) : Nat := fld 0x13 n (0x0011 + k)
abbrev SCHED_SERVED (n : Nat) : Nat := fld 0x13 n 0x0021
abbrev EVAL_MAP (n k : Nat) : Nat := fld 0x13 n (0x0030 + k)
abbrev EVAL_HEALTH (n : Nat) : Nat := fld 0x13 n 0x0050
abbrev EVAL_READY (n : Nat) : Nat := fld 0x13 n 0x0051
abbrev EVAL_MISMATCH (n : Nat) : Nat := fld 0x13 n 0x0052
abbrev LOF_CNT (n : Nat) : Nat := fld 0x13 n 0x0053
abbrev SNAP_SEQ (n : Nat) : Nat := fld 0x13 n 0x0060
abbrev SNAP_TICKNO (n : Nat) : Nat := fld 0x13 n 0x0061
abbrev CW (n : Nat) : Nat := fld 0x13 n 0x0062
abbrev CW_CORR (n : Nat) : Nat := fld 0x13 n 0x0063
abbrev BITS_CORR (n : Nat) : Nat := fld 0x13 n 0x0064
abbrev CW_UNCORR (n : Nat) : Nat := fld 0x13 n 0x0065
abbrev HM_SYM_IN (n : Nat) : Nat := fld 0x13 n 0x0070
abbrev HM_SYM_OUT (n : Nat) : Nat := fld 0x13 n 0x0071
abbrev HM_CW_IN (n : Nat) : Nat := fld 0x13 n 0x0072
abbrev HM_UNCORR_IN (n : Nat) : Nat := fld 0x13 n 0x0073
abbrev HM_CW_OUT (n : Nat) : Nat := fld 0x13 n 0x0074
abbrev HM_UNCORR_OUT (n : Nat) : Nat := fld 0x13 n 0x0075
abbrev HM_HIST_OUT (n k : Nat) : Nat := fld 0x13 n (0x0080 + k)
abbrev CW_TOT (n : Nat) : Nat := fld 0x13 n 0x00A0
abbrev BITS_CORR_TOT (n : Nat) : Nat := fld 0x13 n 0x00A1
abbrev CW_UNCORR_TOT (n : Nat) : Nat := fld 0x13 n 0x00A2
abbrev HM_UNCORR_IN_TOT (n : Nat) : Nat := fld 0x13 n 0x00A3
abbrev HM_UNCORR_OUT_TOT (n : Nat) : Nat := fld 0x13 n 0x00A4
abbrev SEG_BYPASS_TICKS (n : Nat) : Nat := fld 0x13 n 0x00A5
end FEC

namespace HRX
abbrev STATE (n : Nat) : Nat := fld 0x20 n 0x0000
abbrev FLAGS (n : Nat) : Nat := fld 0x20 n 0x0001
abbrev INPUT_POL (n : Nat) : Nat := fld 0x20 n 0x0010
abbrev LT_EN (n : Nat) : Nat := fld 0x20 n 0x0011
abbrev PRECODE_REQ (n : Nat) : Nat := fld 0x20 n 0x0012
abbrev RX_PRESET (n : Nat) : Nat := fld 0x20 n 0x0013
abbrev SD_THR (n : Nat) : Nat := fld 0x20 n 0x0014
abbrev LOS_TICKS (n : Nat) : Nat := fld 0x20 n 0x0015
abbrev AUTO_RELINK (n : Nat) : Nat := fld 0x20 n 0x0016
abbrev RETRAIN (n : Nat) : Nat := fld 0x20 n 0x0017
abbrev LT_TIMEOUT (n : Nat) : Nat := fld 0x20 n 0x0018
abbrev EQ_FREEZE (n : Nat) : Nat := fld 0x20 n 0x0019
abbrev CTLE_PEAK (n : Nat) : Nat := fld 0x20 n 0x0020
abbrev FFE_COEF (n k : Nat) : Nat := fld 0x20 n (0x0030 + k)
abbrev DFE_COEF (n : Nat) : Nat := fld 0x20 n 0x003C
abbrev CDR_FREQ (n : Nat) : Nat := fld 0x20 n 0x0040
abbrev EBUF_FILL (n : Nat) : Nat := fld 0x20 n 0x0041
abbrev LOS_CNT (n : Nat) : Nat := fld 0x20 n 0x0050
abbrev LOL_CNT (n : Nat) : Nat := fld 0x20 n 0x0051
abbrev EBUF_CNT (n : Nat) : Nat := fld 0x20 n 0x0052
abbrev LT_CNT (n : Nat) : Nat := fld 0x20 n 0x0053
abbrev LT_FAIL_CNT (n : Nat) : Nat := fld 0x20 n 0x0054
abbrev RELINK_CNT (n : Nat) : Nat := fld 0x20 n 0x0055
end HRX

namespace HTX
abbrev FLAGS (n : Nat) : Nat := fld 0x21 n 0x0001
abbrev OUT_POL (n : Nat) : Nat := fld 0x21 n 0x0010
abbrev SWING (n : Nat) : Nat := fld 0x21 n 0x0011
abbrev SQUELCH (n : Nat) : Nat := fld 0x21 n 0x0012
abbrev PRECODE (n : Nat) : Nat := fld 0x21 n 0x0013
abbrev LINE_LOSS_ACT (n : Nat) : Nat := fld 0x21 n 0x0014
abbrev LINE_OK_TICKS (n : Nat) : Nat := fld 0x21 n 0x0015
abbrev TX_PRESET (n : Nat) : Nat := fld 0x21 n 0x0016
abbrev FIR_TAP (n k : Nat) : Nat := fld 0x21 n (0x0020 + k)
abbrev CLK_SRC (n : Nat) : Nat := fld 0x21 n 0x0030
abbrev CLK_FREQ (n : Nat) : Nat := fld 0x21 n 0x0031
abbrev LINE_LOSS_CNT (n : Nat) : Nat := fld 0x21 n 0x0040
abbrev LINE_LOSS_TICKS (n : Nat) : Nat := fld 0x21 n 0x0041
end HTX

namespace JNR
abbrev STATE (n : Nat) : Nat := fld 0x30 n 0x0000
abbrev FLAGS (n : Nat) : Nat := fld 0x30 n 0x0001
abbrev RESTART_CNT (n : Nat) : Nat := fld 0x30 n 0x0002
abbrev SCHED_SET_ID (n : Nat) : Nat := fld 0x30 n 0x0010
abbrev SCHED (n k : Nat) : Nat := fld 0x30 n (0x0011 + k)
abbrev RG_DUTY (n k : Nat) : Nat := fld 0x30 n (0x0031 + k)
abbrev USER_GRANT (n k : Nat) : Nat := fld 0x30 n (0x0035 + k)
abbrev DM1_RETAIN (n : Nat) : Nat := fld 0x30 n 0x0050
abbrev LATE (n : Nat) : Nat := fld 0x30 n 0x0051
abbrev OVR_CNT (n k : Nat) : Nat := fld 0x30 n (0x0060 + k)
abbrev LATE_LIMIT (n : Nat) : Nat := fld 0x30 n 0x0080
abbrev USER_REVERT_CNT (n : Nat) : Nat := fld 0x30 n 0x0081
abbrev SANDBOX_CNT (n : Nat) : Nat := fld 0x30 n 0x0082
abbrev DM_CORR (n : Nat) : Nat := fld 0x30 n 0x0083
abbrev DM_UNCORR (n : Nat) : Nat := fld 0x30 n 0x0084
abbrev DM_LOCK_CNT (n : Nat) : Nat := fld 0x30 n 0x0085
abbrev PUBLISH_CNT (n : Nat) : Nat := fld 0x30 n 0x0090
abbrev PUBLISH_DISPLACED (n : Nat) : Nat := fld 0x30 n 0x0091
abbrev PUBLISH_STALE (n : Nat) : Nat := fld 0x30 n 0x0092
abbrev PUBLISH_SUPPRESSED (n : Nat) : Nat := fld 0x30 n 0x0093
abbrev PUBLISH_BUSY (n : Nat) : Nat := fld 0x30 n 0x0094
abbrev PUBLISH_LIMIT (n : Nat) : Nat := fld 0x30 n 0x0095
abbrev CAP_STALL (n : Nat) : Nat := fld 0x30 n 0x00A0
abbrev CAP_POISON (n : Nat) : Nat := fld 0x30 n 0x00A1
abbrev CAP_TRUNC (n : Nat) : Nat := fld 0x30 n 0x00A2
abbrev COUNTER_GRANT (n : Nat) : Nat := fld 0x30 n 0x00B0
abbrev PC_CYCLE (n : Nat) : Nat := fld 0x30 n 0x00B1
abbrev PC_CTRL (n k : Nat) : Nat := fld 0x30 n (0x00C0 + k)
abbrev PC_VAL (n k : Nat) : Nat := fld 0x30 n (0x00C8 + k)
abbrev PC_PAIR (n k : Nat) : Nat := fld 0x30 n (0x00D0 + k)
end JNR

namespace HK
abbrev STATE : Nat := fld 0x40 0 0x0000
abbrev FLAGS : Nat := fld 0x40 0 0x0001
abbrev SEQ_LEN : Nat := fld 0x40 0 0x0010
abbrev SEQ_TRIG : Nat := fld 0x40 0 0x0011
abbrev SEQ_PERIOD : Nat := fld 0x40 0 0x0012
abbrev SEQ_TICKS : Nat := fld 0x40 0 0x0013
abbrev SEQ_GO : Nat := fld 0x40 0 0x0014
abbrev TRIG_OVERLAP : Nat := fld 0x40 0 0x0015
abbrev PASS_CNT : Nat := fld 0x40 0 0x0016
abbrev WIN_TRIG_MASK : Nat := fld 0x40 0 0x0017
abbrev RB_SEL : Nat := fld 0x40 0 0x0018
abbrev STEP (k : Nat) : Nat := fld 0x40 0 (0x0020 + k)
abbrev RESULT (k : Nat) : Nat := fld 0x40 0 (0x0060 + k)
abbrev RING_BASE (k : Nat) : Nat := fld 0x40 0 (0x00A0 + k)
abbrev RING_LEN (k : Nat) : Nat := fld 0x40 0 (0x00A8 + k)
abbrev RING_WPOS (k : Nat) : Nat := fld 0x40 0 (0x00B0 + k)
abbrev RING_MARK (k : Nat) : Nat := fld 0x40 0 (0x00B8 + k)
abbrev RING_FLAGS (k : Nat) : Nat := fld 0x40 0 (0x00C0 + k)
abbrev RING_MARK_SET : Nat := fld 0x40 0 0x00C8
abbrev OVERTAKEN_CNT : Nat := fld 0x40 0 0x00C9
abbrev FILT_PRESET (k : Nat) : Nat := fld 0x40 0 (0x0100 + k)
abbrev FILT_CFG (k : Nat) : Nat := fld 0x40 0 (0x0108 + k)
abbrev FILT_RING (k : Nat) : Nat := fld 0x40 0 (0x0110 + k)
abbrev FILT_SETTLE (k : Nat) : Nat := fld 0x40 0 (0x0118 + k)
abbrev FILT_COEF (k : Nat) : Nat := fld 0x40 0 (0x0120 + k)
abbrev FILT_OUT (k : Nat) : Nat := fld 0x40 0 (0x0170 + k)
abbrev FILT_STAT (k : Nat) : Nat := fld 0x40 0 (0x0178 + k)
abbrev WIN_CFG (k : Nat) : Nat := fld 0x40 0 (0x0180 + k)
abbrev WIN_LO (k : Nat) : Nat := fld 0x40 0 (0x0190 + k)
abbrev WIN_HI (k : Nat) : Nat := fld 0x40 0 (0x01A0 + k)
abbrev WIN_STAT : Nat := fld 0x40 0 0x01B0
abbrev WIN_CLR : Nat := fld 0x40 0 0x01B1
abbrev WIN_CNT (k : Nat) : Nat := fld 0x40 0 (0x01C0 + k)
abbrev WIN_SAFE (k : Nat) : Nat := fld 0x40 0 (0x01D0 + k)
abbrev SYSCAL_OFS (k : Nat) : Nat := fld 0x40 0 (0x0200 + k)
abbrev SYSCAL_GAIN (k : Nat) : Nat := fld 0x40 0 (0x0220 + k)
abbrev RING_DATA (k : Nat) : Nat := fld 0x40 0 (0x0800 + k)
end HK

namespace BDAC
abbrev FLAGS : Nat := fld 0x41 0 0x0001
abbrev HOLD : Nat := fld 0x41 0 0x0002
abbrev RELEASE : Nat := fld 0x41 0 0x0003
abbrev SC_STAT : Nat := fld 0x41 0 0x0004
abbrev SC_CLR : Nat := fld 0x41 0 0x0005
abbrev SC_SAFE : Nat := fld 0x41 0 0x0006
abbrev CODE (k : Nat) : Nat := fld 0x41 0 (0x0100 + k)
abbrev SPAN (k : Nat) : Nat := fld 0x41 0 (0x0120 + k)
abbrev SLEW_STEP (k : Nat) : Nat := fld 0x41 0 (0x0140 + k)
abbrev SLEW_DIV (k : Nat) : Nat := fld 0x41 0 (0x0160 + k)
abbrev VMAX (k : Nat) : Nat := fld 0x41 0 (0x0180 + k)
abbrev OUT_CODE (k : Nat) : Nat := fld 0x41 0 (0x01A0 + k)
abbrev OUT_SPAN (k : Nat) : Nat := fld 0x41 0 (0x01C0 + k)
abbrev LOOP_CFG (k : Nat) : Nat := fld 0x41 0 (0x0200 + k)
abbrev LOOP_TARGET (k : Nat) : Nat := fld 0x41 0 (0x0220 + k)
abbrev LOOP_MIN (k : Nat) : Nat := fld 0x41 0 (0x0240 + k)
abbrev LOOP_MAX (k : Nat) : Nat := fld 0x41 0 (0x0260 + k)
abbrev SC_CNT (k : Nat) : Nat := fld 0x41 0 (0x0280 + k)
end BDAC

namespace THM
abbrev STATE : Nat := fld 0x42 0 0x0000
abbrev FLAGS : Nat := fld 0x42 0 0x0001
abbrev MODE : Nat := fld 0x42 0 0x0010
abbrev WARN_THR : Nat := fld 0x42 0 0x0011
abbrev THROT_THR : Nat := fld 0x42 0 0x0012
abbrev SHUT_THR : Nat := fld 0x42 0 0x0013
abbrev HYST : Nat := fld 0x42 0 0x0014
abbrev NEAR : Nat := fld 0x42 0 0x0015
abbrev RATE_THR : Nat := fld 0x42 0 0x0016
abbrev RATE_STEP : Nat := fld 0x42 0 0x0017
abbrev RATE_FLOOR : Nat := fld 0x42 0 0x0018
abbrev THROT_MAX : Nat := fld 0x42 0 0x0019
abbrev SENSOR (k : Nat) : Nat := fld 0x42 0 (0x0020 + k)
abbrev SENSOR_FAIL : Nat := fld 0x42 0 0x0030
abbrev RG_TEMP (k : Nat) : Nat := fld 0x42 0 (0x0040 + k)
abbrev RG_RATE (k : Nat) : Nat := fld 0x42 0 (0x0044 + k)
abbrev RG_LEVEL (k : Nat) : Nat := fld 0x42 0 (0x0048 + k)
abbrev PERIOD (k : Nat) : Nat := fld 0x42 0 (0x0050 + k)
abbrev TJ_MAX : Nat := fld 0x42 0 0x0052
abbrev TJ_PEAK : Nat := fld 0x42 0 0x0053
abbrev WARN_CNT : Nat := fld 0x42 0 0x0060
abbrev THROT_CNT : Nat := fld 0x42 0 0x0061
abbrev STEP_CNT : Nat := fld 0x42 0 0x0062
abbrev STEP_SKIP : Nat := fld 0x42 0 0x0063
abbrev SHUT_CNT : Nat := fld 0x42 0 0x0064
abbrev RG_THROT_TICKS (k : Nat) : Nat := fld 0x42 0 (0x0068 + k)
end THM

namespace PWR
abbrev STATE : Nat := fld 0x50 0 0x0000
abbrev FLAGS : Nat := fld 0x50 0 0x0001
abbrev WAKE_SRC : Nat := fld 0x50 0 0x0002
abbrev WAKE_LINE_MASK : Nat := fld 0x50 0 0x0010
abbrev WAKE_HOST_MASK : Nat := fld 0x50 0 0x0011
abbrev WAKE_RETRIES : Nat := fld 0x50 0 0x0012
abbrev WAKE_RETRY_MS : Nat := fld 0x50 0 0x0013
abbrev RET_VCORE : Nat := fld 0x50 0 0x0014
abbrev AVS_RAIL : Nat := fld 0x50 0 0x0015
abbrev VCORE_TARGET : Nat := fld 0x50 0 0x0020
abbrev VCORE_MEAS : Nat := fld 0x50 0 0x0021
abbrev AVS_REQ_CNT : Nat := fld 0x50 0 0x0022
abbrev AVS_FAULT_CNT : Nat := fld 0x50 0 0x0023
abbrev ENTRY_CNT (k : Nat) : Nat := fld 0x50 0 (0x0030 + k)
abbrev WAKE_CNT : Nat := fld 0x50 0 0x0033
abbrev WAKE_ABORT_CNT : Nat := fld 0x50 0 0x0034
abbrev LAST_WAKE_US : Nat := fld 0x50 0 0x0035
abbrev WAKE_LANES : Nat := fld 0x50 0 0x0036
abbrev SWITCH_CNT : Nat := fld 0x50 0 0x0040
abbrev MAIN_LOSS_TICKNO : Nat := fld 0x50 0 0x0041
abbrev SUPPLY_FAULT_CNT : Nat := fld 0x50 0 0x0042
abbrev DOM_STATE (k : Nat) : Nat := fld 0x50 0 (0x0100 + k)
abbrev CLK_STATE (k : Nat) : Nat := fld 0x50 0 (0x0180 + k)
abbrev REFUSE_CNT (k : Nat) : Nat := fld 0x50 0 (0x0200 + k)
end PWR

namespace RST
abbrev FLAGS : Nat := fld 0x51 0 0x0001
abbrev CAUSE : Nat := fld 0x51 0 0x0002
abbrev CAUSE_CLR : Nat := fld 0x51 0 0x0003
abbrev TRIM_ATTEMPTS : Nat := fld 0x51 0 0x0004
abbrev BOOT_STEP : Nat := fld 0x51 0 0x0005
abbrev FW_COPY : Nat := fld 0x51 0 0x0010
abbrev FW_SEQ_A : Nat := fld 0x51 0 0x0011
abbrev FW_SEQ_B : Nat := fld 0x51 0 0x0012
abbrev CFG_SEQ_A : Nat := fld 0x51 0 0x0013
abbrev CFG_SEQ_B : Nat := fld 0x51 0 0x0014
abbrev BND_SEQ_A : Nat := fld 0x51 0 0x0015
abbrev BND_SEQ_B : Nat := fld 0x51 0 0x0016
abbrev HLTH_SEQ : Nat := fld 0x51 0 0x0017
abbrev HLTH_SEQ_A : Nat := fld 0x51 0 0x0018
abbrev HLTH_SEQ_B : Nat := fld 0x51 0 0x0019
abbrev SVN_FLOOR : Nat := fld 0x51 0 0x001B
abbrev KEY_STATE : Nat := fld 0x51 0 0x001C
abbrev WDT_MS : Nat := fld 0x51 0 0x0020
abbrev WDT_LIMIT : Nat := fld 0x51 0 0x0021
abbrev WDT_CNT : Nat := fld 0x51 0 0x0022
abbrev WARM_CNT : Nat := fld 0x51 0 0x0023
abbrev COLD_CNT : Nat := fld 0x51 0 0x0024
abbrev ACTIVATE_CNT : Nat := fld 0x51 0 0x0025
abbrev ACT_PAUSE_MS : Nat := fld 0x51 0 0x0026
abbrev WARM_LANES : Nat := fld 0x51 0 0x0027
abbrev ST_TICKNO : Nat := fld 0x51 0 0x0030
abbrev ST_TESTED : Nat := fld 0x51 0 0x0031
abbrev ST_FAILED : Nat := fld 0x51 0 0x0032
abbrev ST_SKIPPED : Nat := fld 0x51 0 0x0033
abbrev PAIR_USABLE : Nat := fld 0x51 0 0x0034
abbrev SIMD_HEALTH (k : Nat) : Nat := fld 0x51 0 (0x0035 + k)
abbrev ATT_PUB (k : Nat) : Nat := fld 0x51 0 (0x0040 + k)
end RST

namespace TEN
abbrev STATE (n : Nat) : Nat := fld 0x60 n 0x0000
abbrev FLAGS (n : Nat) : Nat := fld 0x60 n 0x0001
abbrev CHAIN_STATE (n : Nat) : Nat := fld 0x60 n 0x0002
abbrev ADDR (n : Nat) : Nat := fld 0x60 n 0x0003
abbrev CHAIN_LEN (n : Nat) : Nat := fld 0x60 n 0x0004
abbrev EN (n : Nat) : Nat := fld 0x60 n 0x0010
abbrev ASYM_COMP (n : Nat) : Nat := fld 0x60 n 0x0011
abbrev RESYNC_POL (n : Nat) : Nat := fld 0x60 n 0x0012
abbrev RESYNC_GO (n : Nat) : Nat := fld 0x60 n 0x0013
abbrev SLEW_MAX (n : Nat) : Nat := fld 0x60 n 0x0014
abbrev JOIN_WAIT_MS (n : Nat) : Nat := fld 0x60 n 0x0015
abbrev JOIN_WAIT_COLD_MS (n : Nat) : Nat := fld 0x60 n 0x0016
abbrev FWD_TIMEOUT_MS (n : Nat) : Nat := fld 0x60 n 0x0017
abbrev TSYNC_MODE (n : Nat) : Nat := fld 0x60 n 0x0020
abbrev TSYNC_DIV (n : Nat) : Nat := fld 0x60 n 0x0021
abbrev LINK_DELAY (n : Nat) : Nat := fld 0x60 n 0x0030
abbrev RTT (n : Nat) : Nat := fld 0x60 n 0x0031
abbrev ALIGN_ERR (n : Nat) : Nat := fld 0x60 n 0x0032
abbrev TRAIN_CNT (n : Nat) : Nat := fld 0x60 n 0x0040
abbrev TRAIN_FAIL_CNT (n : Nat) : Nat := fld 0x60 n 0x0041
abbrev LINK_DOWN_CNT (n : Nat) : Nat := fld 0x60 n 0x0042
abbrev MSG_ERR_CNT (n : Nat) : Nat := fld 0x60 n 0x0043
abbrev FWD_CNT (n : Nat) : Nat := fld 0x60 n 0x0044
abbrev FWD_TIMEOUT_CNT (n : Nat) : Nat := fld 0x60 n 0x0045
abbrev RESYNC_CNT (n : Nat) : Nat := fld 0x60 n 0x0046
abbrev SLEW_CNT (n : Nat) : Nat := fld 0x60 n 0x0047
abbrev TICK_ADJ_CNT (n : Nat) : Nat := fld 0x60 n 0x0048
abbrev TSYNC_REALIGN_CNT (n : Nat) : Nat := fld 0x60 n 0x0049
abbrev PRESENT (n : Nat) : Nat := fld 0x60 n 0x0100
abbrev ALARM (n : Nat) : Nat := fld 0x60 n 0x0101
abbrev ALARM_CLR (n : Nat) : Nat := fld 0x60 n 0x0102
abbrev ASLEEP (n : Nat) : Nat := fld 0x60 n 0x0103
abbrev TELEM_LATE (n : Nat) : Nat := fld 0x60 n 0x0104
abbrev RAFTER_STATUS (n k : Nat) : Nat := fld 0x60 n (0x0108 + k)
end TEN

namespace OBS
abbrev FLAGS : Nat := fld 0x70 0 0x0001
abbrev SNAP_SEQ : Nat := fld 0x70 0 0x0002
abbrev SNAP_TICKNO : Nat := fld 0x70 0 0x0003
abbrev LOG_SEQ : Nat := fld 0x70 0 0x0010
abbrev LOG_OLDEST : Nat := fld 0x70 0 0x0011
abbrev LOG_SUPPR_CNT : Nat := fld 0x70 0 0x0012
abbrev LOG_DISCARD_CNT : Nat := fld 0x70 0 0x0013
abbrev IRQ_STAT : Nat := fld 0x70 0 0x0020
abbrev IRQ_MASK : Nat := fld 0x70 0 0x0021
abbrev IRQ_CLR : Nat := fld 0x70 0 0x0022
abbrev IRQ_LEVEL_MASK : Nat := fld 0x70 0 0x0023
abbrev LANE_CHG : Nat := fld 0x70 0 0x0024
abbrev LANE_CHG_CLR : Nat := fld 0x70 0 0x0025
abbrev FAULT_STAT : Nat := fld 0x70 0 0x0026
abbrev FAULT_CLR : Nat := fld 0x70 0 0x0027
abbrev CAP_STATE (k : Nat) : Nat := fld 0x70 0 (0x0030 + k)
abbrev CAP_FLAGS (k : Nat) : Nat := fld 0x70 0 (0x0038 + k)
abbrev CAP_WPOS (k : Nat) : Nat := fld 0x70 0 (0x0040 + k)
abbrev CAP_TRIG_POS (k : Nat) : Nat := fld 0x70 0 (0x0048 + k)
abbrev CAP_MARK (k : Nat) : Nat := fld 0x70 0 (0x0050 + k)
abbrev CAP_MARK_SET : Nat := fld 0x70 0 0x0058
abbrev CAP_TRIG_IGNORED : Nat := fld 0x70 0 0x0059
abbrev CAP_OVERTAKEN_CNT : Nat := fld 0x70 0 0x005A
abbrev CAP_UNCORR : Nat := fld 0x70 0 0x005B
abbrev HIST_CFG (k : Nat) : Nat := fld 0x70 0 (0x0060 + k)
abbrev HIST_TICKS (k : Nat) : Nat := fld 0x70 0 (0x0068 + k)
abbrev HIST_SEQ (k : Nat) : Nat := fld 0x70 0 (0x0070 + k)
abbrev HIST_GO : Nat := fld 0x70 0 0x0078
abbrev QSEQ (n : Nat) : Nat := fld 0x70 0 (0x0100 + 16 * n)
abbrev QTICKNO (n : Nat) : Nat := fld 0x70 0 (0x0101 + 16 * n)
abbrev QFLAGS (n : Nat) : Nat := fld 0x70 0 (0x0102 + 16 * n)
abbrev SNR (n : Nat) : Nat := fld 0x70 0 (0x0103 + 16 * n)
abbrev BER_LOG (n : Nat) : Nat := fld 0x70 0 (0x0104 + 16 * n)
abbrev LEVEL_MEAN (n k : Nat) : Nat := fld 0x70 0 (0x0105 + 16 * n + k)
abbrev EYE (n k : Nat) : Nat := fld 0x70 0 (0x0109 + 16 * n + k)
abbrev LLR_IDX (n : Nat) : Nat := fld 0x70 0 (0x010C + 16 * n)
abbrev HQSEQ (n : Nat) : Nat := fld 0x70 0 (0x0200 + 16 * n)
abbrev HQFLAGS (n : Nat) : Nat := fld 0x70 0 (0x0201 + 16 * n)
abbrev HSNR (n : Nat) : Nat := fld 0x70 0 (0x0202 + 16 * n)
abbrev HEYE_MIN (n : Nat) : Nat := fld 0x70 0 (0x0203 + 16 * n)
abbrev HIST_BIN (k : Nat) : Nat := fld 0x70 0 (0x0300 + k)
end OBS

/-- The default decoder schedule entry p, with EN set (Table 5-3). -/
def factorySched (p : Nat) : Nat :=
  128 + ([0x00, 0x01, 0x02, 0x04, 0x08, 0x03, 0x05, 0x06, 0x09, 0x0A, 0x0C, 0x07, 0x0B, 0x0D, 0x0E, 0x0F] : List Nat).getD p 0

/-- The factory Joiner schedule word of slot k (Table 7-6 in the layout of Table 7-4). -/
def factorySlot (k : Nat) : Nat :=
  let w (kind tgt entry : Nat) : Nat := kind * 0x20000000 + tgt * 0x1000000 + entry * 0x10000
  if k = 0 ∨ k = 31 then w 1 0 0x00
  else if k ≤ 8 then w 2 (k - 1) 0x10
  else if k ≤ 16 then w 2 (k - 9) 0x11
  else if k ≤ 20 then w 3 (k - 17) 0x20
  else if k ≤ 22 then w 4 0 0x02
  else if k ≤ 24 then w 5 0 0x01
  else 0

/-- Reset values that differ from element to element of a field array: the identity maps, the factory schedules, the
main taps, and the units all usable (log 3). -/
def specialReset (a : Nat) : Option Nat :=
  let off := offOf a
  match blkOf a with
  | 0x10 =>
    if off = 0x0036 then some 128
    else if off = 0x0090 then some 0xFFFFFFFFFFFFFFFF
    else if off = 0x0091 then some 3
    else if 0x00A0 ≤ off ∧ off ≤ 0x00DF then some (off - 0x00A0)
    else none
  | 0x11 =>
    if off = 0x0042 then some 256
    else if off = 0x0054 then some 0xF
    else none
  | 0x12 =>
    if 0x0020 ≤ off ∧ off ≤ 0x005F then some (off - 0x0020)
    else if 0x0060 ≤ off ∧ off ≤ 0x009F then some (off - 0x0060)
    else if off = 0x00A0 ∨ off = 0x00A2 then some 0xFFFFFFFFFFFFFFFF
    else if off = 0x00A1 ∨ off = 0x00A3 then some 3
    else none
  | 0x13 =>
    if 0x0011 ≤ off ∧ off ≤ 0x0020 then some (factorySched (off - 0x0011))
    else if 0x0030 ≤ off ∧ off ≤ 0x004F then some (off - 0x0030)
    else if off = 0x0050 then some 0x3FFFFFFFF
    else none
  | 0x20 => if off = 0x0033 then some 64 else none
  | 0x21 => if off = 0x0023 then some 64 else none
  | 0x30 => if 0x0011 ≤ off ∧ off ≤ 0x0030 then some (factorySlot (off - 0x0011)) else none
  | 0x51 =>
    if off = 0x001C then some 1
    else if off = 0x0034 then some 0xF
    else if off = 0x0035 ∨ off = 0x0036 then some 0xFFFFFFFF
    else none
  | _ => none

/-- The reset value of a field (Reset column of its field table). -/
def resetVal (a : Nat) : Nat :=
  match fieldRow a with
  | none => 0
  | some r => (match specialReset a with
    | some v => v
    | none => r.reset) % 2 ^ r.width

/-- The access class of a field (Table 0-8). -/
def fieldCls (a : Nat) : Option Cls := (fieldRow a).map (·.cls)

/-- Is the field held in the always-on island (R333)? -/
def fieldAon (a : Nat) : Bool := ((fieldRow a).map (·.aon)).getD false

end Sys2Proof.Machine
end

