-- ==== Sys2Proof/Machine/StateJoiner.lean ====
section
/-!
DEFINITION. State of the two Joiners, the capture FIFOs and the publish path (chapters 7 and 8).
-/

namespace Sys2Proof.Machine

/-- What an issued syllable will do when its result arrives or its bundle retires (R236). -/
inductive Eff where
  /-- Lanes `mask` of a physical vector register. -/
  | vec (r : Nat) (mask : Word) (val : List Half)
  /-- Lanes `mask` of an accumulator as the MAC group reads it. -/
  | accFwd (r : Nat) (mask : Word) (val : List Acc)
  /-- Lanes `mask` of an accumulator as every other reader sees it. -/
  | acc (r : Nat) (mask : Word) (val : List Acc)
  /-- Sticky saturation flags to set. -/
  | sat (bits : Word)
  | scalar (r : Nat) (val : Word)
  | addr (r : Nat) (val : Word)
  | offset (r : Nat) (val : Word)
  | circ (r : Nat) (base len : BitVec 20)
  | pred (r : Nat) (val : Word)
  /-- A special register by its index in Table 8-2. -/
  | special (r : Nat) (val : Word)
  /-- A store, and the slot cycle from which a load of the same row sees it (Table 8-3). -/
  | storeV (ea seen : Nat) (val : List Half)
  | storeS (ea seen : Nat) (val : Word)
  /-- The checks of a PUB, and the request itself. -/
  | askPub (sd tgt kind idx : Nat)
  | pub (tgt kind idx : Nat)
  /-- The checks of a CAPREQ, and the request itself. -/
  | askCap (sd tgt point dec : Nat) (count start : Word)
  | capreq (tgt point dec : Nat) (count start : Word)
  | crel (tgt bank : Nat)
  | reti
  /-- A taken branch to an address the running code may not reach (R251). -/
  | badBranch (target : Nat)
  /-- A performance event of Table 7-15 counted at retirement. -/
  | count (ev : Nat)
  deriving DecidableEq, Repr

/-- A result in flight: the slot cycle in which its bundle issued, the one from which it is visible, the one in which the
bundle retires, and what it does (R236). -/
structure Flight where
  issue : Nat
  due : Nat
  ret : Nat
  eff : Eff
  deriving DecidableEq, Repr

/-- A repeat block in progress (R257 to R259). -/
structure RepBlock where
  start : Nat
  len : Nat
  /-- Bodies still to run after the present one, and the body bundle to issue next. -/
  left : Nat
  pos : Nat
  count : Nat
  rot : Bool
  stages : Nat
  small : Bool
  deriving DecidableEq, Repr

/-- Per slot bookkeeping (R210, R212, R213). -/
structure SlotBook where
  latePrev : Bool
  first : Bool
  dmErr : Bool
  overruns : Nat
  reverted : Bool
  /-- The slot reverts at the next boundary (R213). -/
  revertDue : Bool
  /-- The target lane has changed state since the slot's previous run (R210). -/
  changed : Bool
  lateNow : Bool
  /-- TICKNO of the last logged factory overrun (R213). -/
  loggedAt : Option Nat
  deriving DecidableEq, Repr

/-- A Joiner beside its JNR fields (Table 8-1). -/
structure Joiner where
  v : List (List Half)
  accF : List (List Acc)
  accV : List (List Acc)
  s : List Word
  a : List Word
  m : List Word
  cb : List (BitVec 20)
  cl : List (BitVec 20)
  p : List Word
  lr : Word
  satf : Word
  epc : Word
  icause : Word
  rotofs : Nat
  /-- RSZ of the last ROT block, which fixes the window code after the block still names (R258). -/
  rotSmall : Bool
  /-- The running slot, its length, the next issue cycle, the next bundle address. -/
  slot : Option Nat
  slotLen : Nat
  cycle : Nat
  pc : Nat
  /-- TICKNO of the running slot's tick. -/
  slotTick : Nat
  flights : List Flight
  /-- Longest latency and destination of the X syllable already issued in this bundle. -/
  xLat : Nat
  xDest : Option Nat
  xDone : Bool
  xFlights : List Flight
  /-- A taken branch waiting out its delay slots: bundles left and target (R238). -/
  branch : Option (Nat × Nat)
  /-- Delay slots of any branch, taken or not, still to issue (R260). -/
  delay : Nat
  /-- The target of a branch that has retired as a fault while its delay slots still issue (R251). -/
  badBranch : Option Nat
  rep : Option RepBlock
  /-- YIELD has issued; the cycle in which it retires (R256). -/
  yieldAt : Option Nat
  /-- Cycle of the last aperture read of the own die (R244). -/
  lastCap : Option Nat
  /-- Interrupt sources pending (R214), and interrupts enabled (R261). -/
  irqPending : Word
  irqEnabled : Bool
  /-- A factory-code exception or SYS overrun waits for the restart (R229). -/
  fault : Bool
  /-- TICKNO and count of recent restarts (R229). -/
  restarts : List Nat
  /-- Master copies, as (kind, target), still to be rebuilt after a restart (R39, R229). -/
  rebuild : List (Nat × Nat)
  slots : List SlotBook
  /-- Holding register for word-wise reads of fields (R332): address and latched word 1. -/
  hold : Option (Nat × Nat)
  /-- Data memory (R202), sparse bytes over zero. -/
  dm : List (Nat × Nat)
  /-- Program memory (R202), sparse bytes over zero, and the entry table (R224), sparse over zero. -/
  pm : List (Nat × Nat)
  entry : List (Nat × Nat)
  deriving DecidableEq, Repr

/-- Where a publish stands (Table 7-11). -/
inductive PubPhase where
  | writing | verifying | complete | armed | swapped
  deriving DecidableEq, Repr

/-- A publish from issue until its buffer is unlocked (R221 to R223). -/
structure Publish where
  die : Nat
  kind : Nat
  tgt : Nat
  words : List Nat
  setId : Nat
  epoch : Nat
  temp : Nat
  gen : Nat
  conservative : Bool
  phase : PubPhase
  /-- The boundary at which the write, the verification or the swap may end. -/
  due : Nat
  deriving DecidableEq, Repr

/-- One bank of a capture FIFO (R215): status of Table 7-9 and words with their sidebands. -/
structure CapBank where
  full : Bool
  trunc : Bool
  point : Nat
  pkt : Nat
  tick : Nat
  off : Nat
  words : List (BitVec 128 × BitVec 16)
  deriving DecidableEq, Repr

/-- A capture request (R216): point, words, decimation, start offset after a boundary, and the boundary. -/
structure CapReq where
  point : Nat
  count : Nat
  dec : Nat
  start : Option Nat
  after : Nat
  deriving DecidableEq, Repr

/-- A capture FIFO: two banks, the queued request, the packet being filled, the packet counter. -/
structure CapFifo where
  a : CapBank
  b : CapBank
  queued : Option CapReq
  /-- The bank being filled (0 A, 1 B) and its request. -/
  filling : Option (Nat × CapReq)
  /-- Data-path words seen since the packet began (decimation). -/
  seen : Nat
  pkt : Nat
  /-- Items left over from earlier data-path words, for the next capture word. -/
  part : List Int
  /-- The queued request has waited for a bank in this tick (R216). -/
  waited : Bool
  deriving DecidableEq, Repr

def SlotBook.reset : SlotBook := ⟨false, true, false, 0, false, false, false, false, none⟩
def CapBank.reset : CapBank := ⟨false, false, 0, 0, 0, 0, []⟩
def CapFifo.reset : CapFifo := ⟨.reset, .reset, none, none, 0, 0, [], false⟩

/-- A Joiner at reset (log 5): registers zero but P0, which reads all ones. -/
def Joiner.reset : Joiner :=
  { v := List.replicate 64 (List.replicate 32 0), accF := List.replicate 4 (List.replicate 32 0),
    accV := List.replicate 4 (List.replicate 32 0), s := List.replicate 16 0, a := List.replicate 16 0,
    m := List.replicate 8 0, cb := List.replicate 8 0, cl := List.replicate 8 0,
    p := 0xFFFFFFFF :: List.replicate 7 0, lr := 0, satf := 0, epc := 0, icause := 0, rotofs := 0, rotSmall := false,
    slot := none, slotLen := 64, cycle := 0, pc := 0, slotTick := 0, flights := [], xLat := 0, xDest := none,
    xDone := false, xFlights := [], branch := none, delay := 0, badBranch := none, rep := none, yieldAt := none, lastCap := none,
    irqPending := 0, irqEnabled := true, fault := false, restarts := [], rebuild := [], slots := List.replicate 32 .reset, hold := none,
    dm := [], pm := [], entry := [] }

end Sys2Proof.Machine
end

