-- ==== Sys2Proof/Machine/State.lean ====
section
/-!
DEFINITION. The state of the block: every register, queue, memory, mode and pin the manual gives it, as plain data,
and the queue of waiting commands.
-/

namespace Sys2Proof.Machine

/-- Faults: none of the block's steps stops with one. The one constructor is kept so that the type is not empty; no
meaning raises it. Safe: it stops the machine where nothing else would. -/
inductive Fault where
  /-- Raised by no meaning. Safe. -/
  | never
  deriving DecidableEq, Repr

/-- Why a command has no meaning. -/
inductive Refusal where
  /-- Raised by the arm of a command that has no meaning yet. Safe: nothing is claimed of it. -/
  | notModelled (mnemonic : String)
  /-- Raised by a command whose operands no hardware could supply, such as a word of other than 128 samples
  (WellFormed). Safe: the hardware has no such step. -/
  | illFormed (mnemonic : String)
  deriving DecidableEq, Repr

/-- The values of the parameter fields that differ from their reset values, by address (R17), in canonical form. -/
abbrev Regs := List (Nat × Nat)

/-- The state of the UXG3208. -/
structure State where
  /-- Commands waiting, first in first out. -/
  pending : List Instr
  /-- Parameter fields (R322). -/
  regs : Regs
  /-- TICKNO (R9). -/
  tickno : Nat
  /-- Correction, in core cycles, of the tick in progress (R28). -/
  tickAdj : Int
  /-- Die 1's own count while the bridge is lost (R43). -/
  tick1 : Option Nat
  /-- Number of free values drawn so far (the model's own; log 2). -/
  free : Nat
  /-- Snapshot images of die 0 and die 1 (R466), with their sequence numbers. -/
  image0 : Regs
  image1 : Regs
  seq0 : Nat
  seq1 : Nat
  rx : List RxLane
  tx : List TxLane
  host : List HostLaneSt
  ctxT : List TblMem
  shpT : List TblMem
  track : List TrackTimes
  /-- Host-code taps: IN of region r at 2r, OUT at 2r + 1 (R161). -/
  taps : List Tap
  /-- Commit domains 0 and 1 (R30). -/
  doms : List Domain
  live : List LiveWrite
  loads : List Load
  /-- Master copies in the management memory: recipe-supplied tables a commit has made active (R27). -/
  mgmt : List TableSet
  unit : Option UnitCommit
  /-- Retirements the firmware wants and could not place yet (log 161). -/
  asked : List Retirement
  lanes : List LaneReq
  spi : Transport
  i2c : Transport
  tenon : Transport
  nextRid : Nat
  longOps : List LongOp
  /-- Event log, oldest first; recent entries for R479 as (code, instance, TICKNO); suppression in force; the queue
  of die 1 (R478). -/
  log : List LogEntry
  recent : List (Nat × Nat × Nat)
  suppr : List Suppressed
  die1Log : List LogEntry
  caps : List CapRing
  hists : List (Option HistRun)
  /-- Joiners of die 0 and die 1, capture FIFOs of clusters 0 to 23, publishes. -/
  joiners : List Joiner
  fifos : List CapFifo
  pubs : List Publish
  /-- Last swap of each publish kind on each target: (kind, target, TICKNO) (R221). -/
  pubSwaps : List (Nat × Nat × Nat)
  sys : Sys
  deriving DecidableEq, Repr

/-- Right after reset: every field of the parameter map at its reset value, every queue empty (logs 3 to 6). -/
def State.reset : State :=
  { pending := [], regs := [], tickno := 0, tickAdj := 0, tick1 := none, free := 0, image0 := [], image1 := [], seq0 := 0, seq1 := 0,
    rx := List.replicate 8 .reset, tx := List.replicate 8 .reset, host := List.replicate 16 .reset,
    ctxT := List.replicate 8 .reset, shpT := List.replicate 8 .reset,
    track := List.replicate 8 ⟨[], List.replicate 16 none, []⟩, taps := List.replicate 8 .reset,
    doms := [.reset, .reset], live := [], loads := [], mgmt := [], unit := none, asked := [], lanes := [], spi := .reset, i2c := .reset,
    tenon := .reset, nextRid := 0, longOps := [], log := [], recent := [], suppr := [], die1Log := [],
    caps := List.replicate 8 .reset, hists := List.replicate 8 none, joiners := [.reset, .reset],
    fifos := List.replicate 24 .reset, pubs := [], pubSwaps := [], sys := .reset }

end Sys2Proof.Machine
end

