-- ==== Sys2Proof/Machine/Ops.lean ====
section
/-!
DEFINITION. The named operations every command is written with: parameter fields, counters, the event log, the
interrupt and fault causes, lane records and replies.
-/

namespace Sys2Proof.Machine

/-! ### Parameter fields -/

/-- The value of a field: what is listed, else its reset value. -/
def Regs.get (r : Regs) (a : Nat) : Nat :=
  match r with
  | [] => resetVal a
  | (k, v) :: m => if k = a then v else Regs.get m a

/-- Write a field, cut to its width (R324), in canonical form. -/
def Regs.set (r : Regs) (a v : Nat) : Regs := spSet (resetVal a) r a (v % 2 ^ fieldWidth a)

/-- The canonical form of the field map: addresses strictly rising, every value within the field's width and different
from its reset value. -/
def Regs.wf : Regs → Bool
  | [] => true
  | [(a, v)] => decide (v ≠ resetVal a) && decide (v < 2 ^ fieldWidth a)
  | (a, v) :: (b, w) :: m =>
    decide (v ≠ resetVal a) && decide (v < 2 ^ fieldWidth a) && decide (a < b) && Regs.wf ((b, w) :: m)

/-- The running value of a field. -/
def State.rd (s : State) (a : Nat) : Nat := s.regs.get a
/-- Set the running value of a field. -/
def State.wr (s : State) (a v : Nat) : State := { s with regs := s.regs.set a v }
/-- Add to a counter, which wraps at its width. -/
def State.add (s : State) (a n : Nat) : State := s.wr a (s.rd a + n)
/-- Count one event. -/
def State.inc (s : State) (a : Nat) : State := s.add a 1
/-- One bit of a field. -/
def State.bit (s : State) (a i : Nat) : Bool := (s.rd a).testBit i
/-- Set or clear one bit of a field. -/
def State.wrBit (s : State) (a i : Nat) (b : Bool) : State := s.wr a (setBit (s.rd a) i b)
/-- A signed field. -/
def State.rdS (s : State) (a : Nat) : Int := sgn (fieldWidth a) (s.rd a)
/-- Write a list of values at consecutive addresses. -/
def State.wrList (s : State) (a : Nat) : List Nat → State
  | [] => s
  | v :: vs => (s.wr a v).wrList (a + 1) vs
/-- Values at `n` consecutive addresses. -/
def State.rdList (s : State) (a n : Nat) : List Nat := (List.range n).map fun k => s.rd (a + k)

/-! ### Lane records -/

def State.rxL (s : State) (n : Nat) : RxLane := s.rx.getD n .reset
def State.txL (s : State) (n : Nat) : TxLane := s.tx.getD n .reset
def State.hostL (s : State) (k : Nat) : HostLaneSt := s.host.getD k .reset
def State.modRx (s : State) (n : Nat) (f : RxLane → RxLane) : State := { s with rx := modNth .reset s.rx n f }
def State.modTx (s : State) (n : Nat) (f : TxLane → TxLane) : State := { s with tx := modNth .reset s.tx n f }
def State.modHost (s : State) (k : Nat) (f : HostLaneSt → HostLaneSt) : State := { s with host := modNth .reset s.host k f }
/-- A table memory of a lane. -/
def State.tbl (s : State) (n : Nat) (t : Tbl) : TblMem :=
  match t with
  | .ctx => s.ctxT.getD n .reset
  | .shp => s.shpT.getD n .reset
def State.modTbl (s : State) (n : Nat) (t : Tbl) (f : TblMem → TblMem) : State :=
  match t with
  | .ctx => { s with ctxT := modNth .reset s.ctxT n f }
  | .shp => { s with shpT := modNth .reset s.shpT n f }
/-- A host-code tap: IN of region `r` at 2r, OUT at 2r + 1. -/
def State.tap (s : State) (i : Nat) : Tap := s.taps.getD i .reset
def State.modTap (s : State) (i : Nat) (f : Tap → Tap) : State := { s with taps := modNth .reset s.taps i f }
def State.jn (s : State) (d : Nat) : Joiner := s.joiners.getD d .reset
def State.modJn (s : State) (d : Nat) (f : Joiner → Joiner) : State := { s with joiners := modNth .reset s.joiners d f }
def State.fifo (s : State) (c : Nat) : CapFifo := s.fifos.getD c .reset
/-- A queued request that finds both banks FULL waits in this tick (R216). -/
def CapFifo.mark (f : CapFifo) : CapFifo := if f.queued.isSome && f.a.full && f.b.full then { f with waited := true } else f
def State.modFifo (s : State) (c : Nat) (f : CapFifo → CapFifo) : State :=
  { s with fifos := modNth .reset s.fifos c fun x => (f x).mark }
def State.cap (s : State) (n : Nat) : CapRing := s.caps.getD n .reset
def State.modCap (s : State) (n : Nat) (f : CapRing → CapRing) : State := { s with caps := modNth .reset s.caps n f }
def State.dom (s : State) (d : Nat) : Domain := s.doms.getD d .reset
def State.modDom (s : State) (d : Nat) (f : Domain → Domain) : State := { s with doms := modNth .reset s.doms d f }
def State.modSys (s : State) (f : Sys → Sys) : State := { s with sys := f s.sys }

/-! ### Dies, modes and levels -/

/-- Die of a line lane (Table 0-4). -/
def dieOfLine (n : Nat) : Nat := if n < 4 then 0 else 1
/-- Die of a host lane. -/
def dieOfHost (k : Nat) : Nat := if k < 8 then 0 else 1
/-- Region of a line lane. -/
def regionOfLine (n : Nat) : Nat := n / 2
/-- Region of a host lane. -/
def regionOfHost (k : Nat) : Nat := k / 4
/-- Line lane of a host lane (R6). -/
def lineOfHost (k : Nat) : Nat := k / 2
/-- The host pair of a line lane (R6). -/
def pairOf (n : Nat) : List Nat := [2 * n, 2 * n + 1]
/-- Split mode (R3). -/
def State.split (s : State) : Bool := decide (s.rd DEV.SPLIT = 1)
/-- Rate mode of a die: 0 L400, 1 L200. -/
def State.rate (s : State) (d : Nat) : Nat := if d = 0 then s.rd DEV.RATE_MODE0 else s.rd DEV.RATE_MODE1
/-- FEC mode of a die: 1 segmented. -/
def State.fecMode (s : State) (d : Nat) : Nat := if d = 0 then s.rd DEV.FEC_MODE0 else s.rd DEV.FEC_MODE1
/-- The commit domain that owns the fields of a die (R30, R323). -/
def State.domOfDie (s : State) (d : Nat) : Nat := if s.split then d else 0
/-- The die that holds a field (R323). -/
def dieOfAddr (a : Nat) : Nat :=
  let b := blkOf a
  let i := instOf a
  if b = 0x10 ∨ b = 0x11 ∨ b = 0x12 ∨ b = 0x13 then dieOfLine i
  else if b = 0x20 ∨ b = 0x21 then dieOfHost i
  else if b = 0x30 then (if i = 1 then 1 else 0)
  else if a = DEV.RATE_MODE1 ∨ a = DEV.FEC_MODE1 then 1
  else 0
/-- The commit domain of a field. -/
def State.domOfAddr (s : State) (a : Nat) : Nat := s.domOfDie (dieOfAddr a)
/-- CFG_GEN of a domain (R329). -/
def State.cfgGen (s : State) (dom : Nat) : Nat :=
  if s.split ∧ dom = 1 then s.rd DEV.CFG_GEN1 else s.rd DEV.CFG_GEN0
/-- The region junction temperature, 0.25 °C, as the 16-bit pattern (Table 13-6). -/
def State.regionTemp (s : State) (r : Nat) : Nat := s.rd (THM.RG_TEMP r)
/-- Is die `d` the L200 die of a package whose other die runs L400 (R12)? -/
def State.mixed (s : State) (d : Nat) : Bool := decide (s.split ∧ s.rate d = 1 ∧ s.rate (1 - d) = 0)
/-- Does a boundary of die `d` fall at TICKNO `t` (R12)? -/
def State.dieTicks (s : State) (d t : Nat) : Bool := !s.mixed d || decide (t % 2 = 0)
/-- Package ticks in one tick of a die (R12). -/
def State.tickLen (s : State) (d : Nat) : Nat := if s.mixed d then 2 else 1
/-- The boundary number a die shows: TICKNO, or die 1's own count while the bridge is lost (R43). -/
def State.count (s : State) (d : Nat) : Nat := if d = 0 then s.tickno else s.tick1.getD s.tickno
/-- The TICKNO of the boundary that opened the die's tick, which its stamps carry (R12). -/
def State.now (s : State) (d : Nat) : Nat := if s.mixed d then s.count d - s.count d % 2 else s.count d
/-- The boundary `n` ticks of the die after the last one. -/
def State.later (s : State) (d n : Nat) : Nat := addTicks (s.now d) (n * s.tickLen d)
/-- Ticks of the die since a boundary. -/
def State.since (s : State) (d t : Nat) : Nat := ticksSince (s.now d) t / s.tickLen d
/-- Have `n` ticks of the die passed since a boundary, which may lie ahead? -/
def State.passed (s : State) (d t n : Nat) : Bool := reached (s.now d) (addTicks t (n * s.tickLen d))
/-- May an action with this target take effect: the die is at a boundary of its own at or after it (R12)? -/
def State.dueAt (s : State) (d t : Nat) : Bool := reached (s.now d) t && s.dieTicks d (s.count d)
/-- The stamp of a line or host lane. -/
def State.nowL (s : State) (n : Nat) : Nat := s.now (dieOfLine n)
def State.nowH (s : State) (k : Nat) : Nat := s.now (dieOfHost k)
/-- Ticks of a line or host lane since a boundary. -/
def State.sinceL (s : State) (n t : Nat) : Nat := s.since (dieOfLine n) t
def State.sinceH (s : State) (k t : Nat) : Nat := s.since (dieOfHost k) t

/-- Die 0's core clock runs (R384). -/
def State.coreOn (s : State) : Bool := decide (s.rd (PWR.CLK_STATE 36) = 1)

/-- Ticks in one second (Table 0-3, R12). -/
def State.ticksPerSecond (s : State) : Nat := if s.rate 0 = 1 ∧ s.rate 1 = 1 then 432332 else 864664
/-- Ticks in `n` milliseconds. -/
def State.msTicks (s : State) (n : Nat) : Nat := n * s.ticksPerSecond / 1000

/-- A rafter sends ALARM upstream on a change of status byte 12 or a log entry with IRQ (R460). -/
def State.alarm (s : State) : State :=
  if s.rd DEV.ROLE = 2 ∧ s.rd (TEN.STATE 0) = 2 then
    let b := [0x96, s.rd (TEN.ADDR 0), s.rd OBS.FAULT_STAT, s.rd OBS.IRQ_STAT, 0, 0, 0, 0].map byteOf
    s.modSys fun y => { y with ten := { y.ten with
      ports := modNth .reset y.ten.ports 0 fun p => { p with blocks := p.blocks ++ [b] } } }
  else s

/-! ### Event log (R477 to R480) -/

/-- What a new log entry says. -/
structure LogArg where
  level : Nat := 1
  irq : Bool := false
  fault : Bool := false
  die1 : Bool := false
  inst : Nat := 0
  code : Nat := 0
  detail : Nat := 0
  data : List Byte := []
  deriving DecidableEq, Repr

/-- The entry of an event, not yet numbered. -/
def LogArg.entry (a : LogArg) (tick : Nat) (data : List Byte) : LogEntry :=
  ⟨0, tick, a.level, a.irq, a.fault, a.die1, decide (a.data ≠ []), false, a.inst, a.code, a.detail, data⟩

/-- Entries held at most (R477). -/
def logSize : Nat := 1024

/-- Append an entry with the next sequence number, dropping the oldest of a full log. -/
def State.logPut (s : State) (e : LogEntry) : State :=
  let q := s.rd OBS.LOG_SEQ
  let l := s.log ++ [{ e with seq := q }]
  let s := { s with log := if l.length > logSize then l.drop (l.length - logSize) else l }
  let s := if l.length > logSize then (s.wrBit OBS.FLAGS 0 true).inc OBS.LOG_OLDEST else s
  s.inc OBS.LOG_SEQ

/-- Set an IRQ_STAT bit (R482). -/
def State.irq (s : State) (i : Nat) : State := s.wrBit OBS.IRQ_STAT i true

/-- Write an entry, with its continuation where it has one (R477), and raise IRQ_STAT bit 1 (R482). -/
def State.logNow (s : State) (tick : Nat) (a : LogArg) : State :=
  let more := decide (a.data ≠ [])
  let s := s.logPut (a.entry tick [])
  let s := if more then s.logPut ⟨0, tick, 0, false, false, false, false, true, 0, 0, 0, a.data⟩ else s
  let s := if a.irq ∧ s.bit OBS.IRQ_LEVEL_MASK a.level then s.irq 1 else s
  if a.irq then s.alarm else s

/-- Entries of a code and instance in the last 1,024 ticks (R479). -/
def State.logRecent (s : State) (code inst : Nat) : Nat :=
  (s.recent.filter fun x => decide (x.1 = code ∧ x.2.1 = inst ∧ ticksSince s.tickno x.2.2 < 1024)).length

/-- The TICKNO of an entry: that of the die for the levels up to the die, else the package's (R12). -/
def State.logTick (s : State) (a : LogArg) : Nat := if a.level ≤ 3 then s.now a.die1.toNat else s.tickno

/-- Log an event of the current tick: queued on die 1 while the bridge is lost (R478), suppressed beyond eight in 1,024
ticks (R479), otherwise written. -/
def State.logEv (s : State) (a : LogArg) : State :=
  if a.die1 ∧ s.sys.bridgeLost then
    if s.die1Log.length < 64 then
      { s with die1Log := s.die1Log ++ [a.entry (s.logTick a) a.data] }.wrBit OBS.FLAGS 2 true
    else s
  else if a.fault ∨ a.code = 0x7002 then s.logNow (s.logTick a) a
  else if s.logRecent a.code a.inst ≥ 8 then
    let s := (s.inc OBS.LOG_SUPPR_CNT).wrBit OBS.FLAGS 1 true
    let same := fun (x : Suppressed) => decide (x.code = a.code ∧ x.inst = a.inst)
    if s.suppr.any same then
      { s with suppr := s.suppr.map fun x => if same x then { x with count := x.count + 1 } else x }
    else { s with suppr := s.suppr ++ [⟨a.code, a.inst, a.level, a.die1, 1⟩] }
  else
    let keep := s.recent.filter fun x => decide (ticksSince s.tickno x.2.2 < 1024)
    { s with recent := keep ++ [(a.code, a.inst, s.tickno)] }.logNow (s.logTick a) a

/-- Draw a free value (log 2). -/
def State.draw (s : State) : BitVec 64 × State := (Config.freeValue s.free, { s with free := s.free + 1 })

/-- An entry whose code and detail the manual does not state: free values (log 2). -/
def State.logOpen (s : State) (a : LogArg) : State :=
  let v := s.draw.1.toNat
  s.draw.2.logEv { a with code := v % 65536, detail := v / 65536 % 2 ^ 32 }

/-! ### Interrupt and fault causes -/

/-- Set a FAULT_STAT bit (R483). -/
def State.faultOn (s : State) (i : Nat) : State :=
  if s.bit OBS.FAULT_STAT i then s else (s.wrBit OBS.FAULT_STAT i true).alarm
/-- Clear a FAULT_STAT bit (R483). -/
def State.faultOff (s : State) (i : Nat) : State :=
  if s.bit OBS.FAULT_STAT i then (s.wrBit OBS.FAULT_STAT i false).alarm else s
/-- Record a lane state change (R482): bit n a line lane, bit 8 + k a host lane. -/
def State.laneChg (s : State) (i : Nat) : State := (s.wrBit OBS.LANE_CHG i true).irq 2
/-- Is IRQ_N asserted (R482)? -/
def State.irqN (s : State) : Bool := decide (s.rd OBS.IRQ_STAT &&& s.rd OBS.IRQ_MASK ≠ 0)
/-- Is FAULT_N asserted (R483)? -/
def State.faultN (s : State) : Bool := decide (s.rd OBS.FAULT_STAT ≠ 0)

/-- Slot word fields (Table 7-3). -/
def slotKind (w : Nat) : Nat := bits w 31 29
def slotTarget (w : Nat) : Nat := bits w 28 24
def slotEntry (w : Nat) : Nat := bits w 23 16
def slotDiv (w : Nat) : Nat := bits w 15 14
def slotPhase (w : Nat) : Nat := bits w 13 11

/-- PC_PAIRj: counters 2j + 1 (high) and 2j (low) as one value (R227). -/
def State.pcPair (s : State) (d j : Nat) : Nat := s.rd (JNR.PC_VAL d (2 * j + 1)) * 2 ^ 32 + s.rd (JNR.PC_VAL d (2 * j))

/-- Update the bookkeeping of one slot of a Joiner. -/
def State.modSlot (s : State) (d k : Nat) (f : SlotBook → SlotBook) : State :=
  s.modJn d fun j => { j with slots := modNth .reset j.slots k f }
/-- The state of a target lane has changed: the next run of each slot with that target sees FIRST (R210). -/
def State.tgtChg (s : State) (tgt : Nat) : State :=
  [0, 1].foldl (fun s d => (List.range 32).foldl (fun s k =>
    let w := s.rd (JNR.SCHED d k)
    if (slotKind w = 2 ∨ slotKind w = 6) ∧ slotTarget w = tgt then s.modSlot d k fun b => { b with changed := true } else s) s) s

/-- Change LRX.STATE, recording the change. -/
def State.setRxState (s : State) (n v : Nat) : State :=
  if s.rd (LRX.STATE n) = v then s else ((s.wr (LRX.STATE n) v).laneChg n).tgtChg n
/-- Change LTX.STATE, recording the change. -/
def State.setTxState (s : State) (n v : Nat) : State :=
  if s.rd (LTX.STATE n) = v then s else (s.wr (LTX.STATE n) v).laneChg n
/-- Change HRX.STATE, recording the change. -/
def State.setHostState (s : State) (k v : Nat) : State :=
  if s.rd (HRX.STATE k) = v then s else ((s.wr (HRX.STATE k) v).laneChg (8 + k)).tgtChg (16 + k)

/-- LRX DEGRADED shows any of its causes (R56, R133, R138, R157). -/
def State.rxDegraded (s : State) (n : Nat) : State :=
  let r := s.rxL n
  s.wrBit (LRX.FLAGS n) 3 (r.degMaster || r.degSpare || r.degCtxSpare || r.degDec)
/-- LTX DEGRADED shows any of its causes. -/
def State.txDegraded (s : State) (n : Nat) : State :=
  let r := s.txL n
  s.wrBit (LTX.FLAGS n) 3 (r.degMaster || r.degShpSpare)

/-- A change of the health record: a new sequence number, and a flash mirror owed (R426). -/
def State.healthChg (s : State) : State := (s.inc RST.HLTH_SEQ).wrBit RST.FLAGS 5 true

/-! ### Cluster states -/

/-- Is a line cluster up (R30, R109)? Both sides go up and down together; a cluster in step 1 of its bring-up is up. -/
def State.lineUp (s : State) (n : Nat) : Bool :=
  decide (s.rd (LRX.STATE n) ≠ 0 ∨ s.rd (LTX.STATE n) ≠ 0 ∨ (s.rxL n).step ≠ 0 ∨ (s.txL n).step ≠ 0)
/-- Is a host cluster up? -/
def State.hostUp (s : State) (k : Nat) : Bool := decide (s.rd (HRX.STATE k) ≠ 0 ∨ (s.hostL k).step ≠ 0)
/-- Is any cluster of a die up (R112, R166)? -/
def State.dieUp (s : State) (d : Nat) : Bool :=
  (List.range 8).any (fun n => decide (dieOfLine n = d) && s.lineUp n) ||
  (List.range 16).any (fun k => decide (dieOfHost k = d) && s.hostUp k)
/-- Is the host pair of a line lane valid (R193)? -/
def State.pairValid (s : State) (n : Nat) : Bool :=
  decide (s.rd (HRX.STATE (2 * n)) = 4 ∧ s.rd (HRX.STATE (2 * n + 1)) = 4)

/-! ### Requests and replies -/

def State.trans (s : State) (v : Via) : Transport :=
  match v with
  | .spi => s.spi
  | .i2c => s.i2c
  | .tenon => s.tenon
def State.modTrans (s : State) (v : Via) (f : Transport → Transport) : State :=
  match v with
  | .spi => { s with spi := f s.spi }
  | .i2c => { s with i2c := f s.i2c }
  | .tenon => { s with tenon := f s.tenon }

/-- Queue a reply with the low TICKNO (Table 10-2); NOTIFY raises IRQ_STAT bit 0 (R482). -/
def State.reply (s : State) (r : ReqRef) (st : Status) (final : Bool) (b : Body) : State :=
  let s := s.modTrans r.via fun t => { t with replies := t.replies ++ [⟨r, st, s.tickno % 65536, b, final⟩] }
  if r.notify then s.irq 0 else s

/-- A final OK reply. -/
def State.ok (s : State) (r : ReqRef) (bytes : List Byte) : State := s.reply r .ok true (.data bytes)
/-- An ACCEPTED reply. -/
def State.accepted (s : State) (r : ReqRef) (bytes : List Byte) : State := s.reply r .accepted false (.data bytes)
/-- Both replies of a long-running request whose operation ends at once (R301). -/
def State.done (s : State) (r : ReqRef) (bytes : List Byte) : State := (s.accepted r []).ok r bytes
/-- A refusal, or another final reply with the error payload (R293). -/
def State.refuse (s : State) (r : ReqRef) (st : Status) (name : String) (addr : Nat := 0xFFFFFFFF) (detail : Nat := 0) :
    State := s.reply r st true (.err name addr detail)

/-- A final reply where a request asked for it, none where the device itself did. -/
def State.okIf (s : State) (r : Option ReqRef) (bytes : List Byte) : State :=
  match r with
  | some r => s.ok r bytes
  | none => s
def State.refuseIf (s : State) (r : Option ReqRef) (st : Status) (name : String) (addr : Nat := 0xFFFFFFFF) : State :=
  match r with
  | some r => s.refuse r st name addr
  | none => s

/-- Start a long-running operation (R302). -/
def State.startOp (s : State) (r : ReqRef) (sub : Nat) : State :=
  { s with longOps := s.longOps ++ [⟨r, sub, 0, 0, 0, 0xFFFFFFFF, s.tickno⟩] }
/-- The running operation of an opcode and lane or target. -/
def State.findOp (s : State) (op sub : Nat) : Option LongOp :=
  s.longOps.find? fun o => decide (o.ref.op = op ∧ o.sub = sub)
/-- End a long-running operation. -/
def State.endOp (s : State) (rid : Nat) : State :=
  { s with longOps := s.longOps.filter fun o => decide (o.ref.rid ≠ rid) }


/-- End the operation of a request, where there is one. -/
def State.endOpIf (s : State) (r : Option ReqRef) : State :=
  match r with
  | some r => s.endOp r.rid
  | none => s

/-- The next state, for the meanings. -/
abbrev Result := Host.Outcome State Fault Refusal

/-- IRQ_N and FAULT_N follow their causes (R482, R483). -/
def State.drive (s : State) : State :=
  s.modSys fun y => { y with pins := { y.pins with irq := s.irqN, fault := s.faultN } }

/-- What every meaning ends with: the open-drain outputs are driven, and the queue is as the command found it. -/
def finish (s : State) (r : Result) : Result :=
  match r with
  | .next t => .next { t.drive with pending := s.pending }
  | .fault e => .fault e
  | .refused e => .refused e

end Sys2Proof.Machine
end

