-- ==== Sys2Proof/Machine/ReedSolomon.lean ====
section
/-!
DEFINITION. RS(544,514) over GF(2^10), the host code of R161 to R165: its arithmetic and the correction of up to 15
symbols. PRESUMED: field polynomial x^10 + x^3 + 1, roots α^0 to α^29 and the first symbol as the highest power, as IEEE
802.3 defines the code, which the manual names only (log 171).
-/

namespace Sys2Proof.Machine

/-- Multiply by α. -/
def gf10Step (v : Nat) : Nat := if v ≥ 512 then (2 * v - 1024) ^^^ 9 else 2 * v
/-- The product of two field elements. -/
def gf10Mul (a b : Nat) : Nat :=
  (List.range 10).foldl (fun acc i => gf10Step acc ^^^ (if b.testBit (9 - i) then a else 0)) 0
/-- The inverse of a nonzero element, its power 1,022. -/
def gf10Inv (a : Nat) : Nat :=
  ((List.range 9).foldl (fun (x : Nat × Nat) _ => let q := gf10Mul x.1 x.1; (q, gf10Mul x.2 q)) (a, 1)).2
/-- α^k. -/
def gf10Pow : Nat → Nat
  | 0 => 1
  | k + 1 => gf10Step (gf10Pow k)

/-- The value of a polynomial, lowest power first. -/
def gf10Eval (p : List Nat) (x : Nat) : Nat := p.foldr (fun c acc => gf10Mul acc x ^^^ c) 0

/-- The 30 syndromes of a word, whose first symbol is the highest power. -/
def rsSyndromes (w : List Nat) : List Nat :=
  (List.range 30).map fun i => let r := gf10Pow i; w.foldl (fun acc c => gf10Mul acc r ^^^ c) 0

/-- Sum of two polynomials, the second scaled and moved up. -/
def polyAdd (p q : List Nat) (c shift : Nat) : List Nat :=
  (List.range (max p.length (q.length + shift))).map fun i =>
    p.getD i 0 ^^^ (if i < shift then 0 else gf10Mul c (q.getD (i - shift) 0))

/-- The search for the shortest recurrence of the syndromes: locator, the last locator before its length grew, length,
discrepancy and age of that locator. -/
structure Recurrence where
  loc : List Nat
  prev : List Nat
  len : Nat
  disc : Nat
  age : Nat
  deriving DecidableEq, Repr

/-- One syndrome more. -/
def Recurrence.step (r : Recurrence) (syn : List Nat) (n : Nat) : Recurrence :=
  let d := (List.range (r.len + 1)).foldl (fun acc i =>
    if i ≤ n then acc ^^^ gf10Mul (r.loc.getD i 0) (syn.getD (n - i) 0) else acc) 0
  if d = 0 then { r with age := r.age + 1 }
  else
    let loc := polyAdd r.loc r.prev (gf10Mul d (gf10Inv r.disc)) r.age
    if 2 * r.len ≤ n then ⟨loc, r.loc, n + 1 - r.len, d, 1⟩ else { r with loc := loc, age := r.age + 1 }

/-- The error locator of a list of syndromes, and its degree. -/
def errorLocator (syn : List Nat) : List Nat × Nat :=
  let r := (List.range 30).foldl (fun r n => r.step syn n) (⟨[1], [1], 0, 1, 1⟩ : Recurrence)
  (r.loc, r.len)

/-- The error in the symbol of power `j`, where the locator has a root there. -/
def errorValue (loc syn : List Nat) (j : Nat) : Option Nat :=
  let x := gf10Inv (gf10Pow j)
  if gf10Eval loc x ≠ 0 then none
  else
    let omega := (List.range 30).map fun k =>
      (List.range (k + 1)).foldl (fun acc i => acc ^^^ gf10Mul (loc.getD i 0) (syn.getD (k - i) 0)) 0
    let deriv := (List.range loc.length).map fun i => if i % 2 = 0 then loc.getD (i + 1) 0 else 0
    some (gf10Mul (gf10Pow j) (gf10Mul (gf10Eval omega x) (gf10Inv (gf10Eval deriv x))))

/-- The symbols of a received word in error with their errors; none for an uncorrectable word. The corrected word is a
codeword, so its parity is that of its corrected message. -/
def rsErrors (w : List Nat) : Option (List (Nat × Nat)) :=
  let syn := rsSyndromes w
  if syn.all (· == 0) then some []
  else
    let l := errorLocator syn
    let es := (List.range 544).filterMap fun i => (errorValue l.1 syn (543 - i)).map fun v => (i, v)
    let fixed := es.foldl (fun w x => modNth 0 w x.1 (· ^^^ x.2)) w
    if l.2 ≤ 15 ∧ es.length = l.2 ∧ (rsSyndromes fixed).all (· == 0) then some es else none

end Sys2Proof.Machine
end

