-- ==== Sys2Proof/Machine/HostCode.lean ====
section
/-!
DEFINITION. The host-code units (R161 to R165, R171, R173): the two taps of a region, the codeword groups they collect
from its four host lanes, counting beside the traffic and correction in line.
-/

namespace Sys2Proof.Machine

/-- Bits of a host lane in a group of whole codewords, and the codewords of a group (R161; log 171). -/
def groupBits (rate : Nat) : Nat := if rate = 1 then 2720 else 5440
def groupWords (rate : Nat) : Nat := if rate = 1 then 2 else 4
/-- The skew in host symbols a tap tolerates: 20 ns at IN, 80 ns at OUT (Table 5-6). -/
def tapSkewMax (rate : Nat) (out : Bool) : Nat :=
  match out, rate with
  | false, 1 => 1062
  | false, _ => 2125
  | true, 1 => 4250
  | true, _ => 8500
/-- Bits a segmented tap holds of each lane: a group, the skew it tolerates, and two words (log 171). -/
def tapDelay (rate : Nat) (out : Bool) : Nat := groupBits rate + 2 * tapSkewMax rate out + 480

/-- Where bit `b` of symbol `i` of codeword `c` of the next group lies: lane, and place in its delay line. -/
def Tap.place (t : Tap) (rate c i b : Nat) : Nat × Nat :=
  let l := (Config.pcsLane rate c i).val
  (l, t.start.getD l 0 + Config.pcsBit rate c i b)
/-- Symbol `i` of codeword `c` of the next group. -/
def Tap.symbol (t : Tap) (rate c i : Nat) : Nat :=
  (List.range 10).foldl (fun v b =>
    let p := t.place rate c i b
    v + ((t.lanes.getD p.1 []).getD p.2 false).toNat * 2 ^ b) 0
/-- Invert the bits of one symbol that an error names. -/
def Tap.repair (t : Tap) (rate c : Nat) (e : Nat × Nat) : Tap :=
  (List.range 10).foldl (fun t b =>
    if e.2.testBit b then
      let p := t.place rate c e.1 b
      { t with lanes := modNth [] t.lanes p.1 fun l => modNth false l p.2 (!·) }
    else t) t

/-- Count one codeword: its errors by line lane, or uncorrectable (R162). -/
def HmCount.word (h : HmCount) (rate c : Nat) (es : Option (List (Nat × Nat))) : HmCount :=
  match es with
  | none => { h with cw := h.cw + 1, uncorr := h.uncorr + 1 }
  | some es =>
    let a := (es.filter fun e => decide ((Config.pcsLane rate c e.1).val < 2)).length
    { h with cw := h.cw + 1, symA := h.symA + a, symB := h.symB + (es.length - a), hist := modNth 0 h.hist es.length (· + 1) }

/-- Decode one codeword: counted, and corrected where the tap is in line; an uncorrectable one stays as it came (R162,
R164, R165). -/
def Tap.decode (t : Tap) (rate : Nat) (inLine : Bool) (c : Nat) : Tap :=
  let es := rsErrors ((List.range 544).map (t.symbol rate c))
  let t := { t with count := t.count.word rate c es }
  if inLine then (es.getD []).foldl (fun t e => t.repair rate c e) t else t

/-- Decode the next group once all of its bits are there. -/
def Tap.group (t : Tap) (rate : Nat) (inLine : Bool) : Tap :=
  if t.start ≠ [] ∧ (List.range 4).all fun j => decide (t.start.getD j 0 + groupBits rate ≤ (t.lanes.getD j []).length) then
    let t := (List.range (groupWords rate)).foldl (fun t c => t.decode rate inLine c) t
    { t with start := t.start.map (· + groupBits rate) }
  else t

/-- Bits of one lane pass a tap: in line they leave after its delay, corrected (R164); beside the traffic they pass at
once (R162). DESIGN CHOICE: a delay line starts with zeros (log 171). -/
def Tap.pass (t : Tap) (rate : Nat) (out inLine : Bool) (j : Nat) (xs : List Bool) : List Bool × Tap :=
  if !inLine && decide (t.start = []) then (xs, t)
  else
    let old := t.lanes.getD j []
    let l := (if old = [] then List.replicate (tapDelay rate out) false else old) ++ xs
    let t := { t with lanes := modNth [] t.lanes j fun _ => l.drop xs.length
                      start := if t.start = [] then [] else modNth 0 t.start j (· - xs.length) }
    (if inLine then l.take xs.length else xs, t.group rate inLine)

/-- Index of the tap of a region. -/
def tapIx (r : Nat) (out : Bool) : Nat := 2 * r + out.toNat

/-- Bits of host lane `k` pass the tap of its region. -/
def State.tapPass (s : State) (k : Nat) (out : Bool) (xs : List Bool) : State × List Bool :=
  let i := tapIx (regionOfHost k) out
  let d := dieOfHost k
  let x := (s.tap i).pass (s.rate d) out (decide (s.fecMode d = 1)) (k % 4) xs
  (s.modTap i fun _ => x.2, x.1)

/-- SEG_BYPASS of a region shows a segmented tap that is not aligned (R165). -/
def State.segBypass (s : State) (r : Nat) : State :=
  let on := decide (s.fecMode (if r < 2 then 0 else 1) = 1) &&
    (!s.bit (FEC.FLAGS (2 * r)) 2 || !s.bit (FEC.FLAGS (2 * r)) 3)
  (s.wrBit (FEC.FLAGS (2 * r)) 5 on).wrBit (FEC.FLAGS (2 * r + 1)) 5 on

/-- The HM_ALIGNED flag of a tap (Table 5-7). -/
def State.setAligned (s : State) (r : Nat) (out on : Bool) : State :=
  let b := if out then 3 else 2
  ((s.wrBit (FEC.FLAGS (2 * r)) b on).wrBit (FEC.FLAGS (2 * r + 1)) b on).segBypass r

/-- A tap loses alignment: the codeword partly through it passes unchanged and uncounted, and bypass follows (R163, R165,
Table 5-8). -/
def State.tapLost (s : State) (r : Nat) (out : Bool) : State :=
  if s.bit (FEC.FLAGS (2 * r)) (if out then 3 else 2) then
    (s.modTap (tapIx r out) fun t => { t with start := [] }).setAligned r out false
  else s

/-- Are all four lanes of the region valid at a tap (R163): host lanes in DATA at IN, both line lanes in TRACK with their
frames locked at OUT? -/
def State.tapValid (s : State) (r : Nat) (out : Bool) : Bool :=
  if out then [2 * r, 2 * r + 1].all fun n => decide (s.rd (LRX.STATE n) = 3 ∧ s.rd (FEC.FRAME_STATE n) = 2)
  else (List.range 4).all fun j => decide (s.rd (HRX.STATE (4 * r + j)) = 4)

/-- A tap whose lanes are no longer all valid is not aligned (R163). -/
def State.tapCheck (s : State) (r : Nat) (out : Bool) : State := if s.tapValid r out then s else s.tapLost r out

/-- A tap finds the next codeword group `lead` host symbols behind the newest symbol of each lane (R163): it aligns, or
skew beyond the limit keeps it from aligning (R171, Table 5-6). -/
def State.tapAlign (s : State) (r : Nat) (out : Bool) (lead : List Nat) : State :=
  let rate := s.rate (if r < 2 then 0 else 1)
  let skew := lead.foldl max 0 - lead.foldl min (lead.headD 0)
  if s.tapValid r out && decide (skew ≤ tapSkewMax rate out) then
    (s.modTap (tapIx r out) fun t => { t with start := lead.map fun l => tapDelay rate out + 2 * l }).setAligned r out true
  else (s.tapLost r out).logEv { level := 2, die1 := decide (r ≥ 2), inst := r, code := 0x1303, detail := out.toNat }

end Sys2Proof.Machine
end

