-- ==== Sys2Proof/Machine/Bundle.lean ====
section
/-!
DEFINITION. What the active recipe bundle gives (R289, Tables 9-11 and 9-12), factory content where a section or a
lane is missing.
-/

namespace Sys2Proof.Machine

/-- The words of a section of this type for a lane (R289); none where section or lane is missing. -/
def Bundle.sect (b : Bundle) (typ n : Nat) : Option (List Nat) :=
  (b.sections.find? fun x => decide (x.typ = typ) && x.mask.testBit n).map (·.words)
/-- A word of PARAMS in the order of Table 9-12 (log 9), else its factory value. -/
def Bundle.param (b : Bundle) (i factory : Nat) : Nat :=
  match b.sections.find? (fun x => decide (x.typ = 1)) with
  | some x => x.words.getD i factory
  | none => factory
/-- A word of PARAMS for a lane: factory content too where the section's mask leaves the lane out (R289). -/
def Bundle.laneParam (b : Bundle) (n i factory : Nat) : Nat := ((b.sect 1 n).bind (·[i]?)).getD factory
def Bundle.qualWin (b : Bundle) : Nat := b.param 0 1024
def Bundle.staleTicks (b : Bundle) : Nat := b.param 1 0 + 65536 * b.param 2 0x4000
/-- TRACK_UNCORR_MAX (R80). -/
def Bundle.uncorrMax (b : Bundle) (n : Nat) : Nat := b.laneParam n 3 64
/-- DARK_PD_CH of a lane (R270). -/
def Bundle.darkCh (b : Bundle) (n : Nat) : Nat := b.laneParam n (4 + n / 2) 0xFFFF / 256 ^ (n % 2) % 256
def Bundle.darkMax (b : Bundle) (n : Nat) : Nat := b.laneParam n 8 0x040
/-- LLR sets of a lane (R72): one factory set where the bundle has none. -/
def Bundle.llrSet (b : Bundle) (n idx : Nat) : Option (List Nat) :=
  match b.sect 7 n with
  | none => if idx = 0 then some factoryLlr else none
  | some ws => if 228 * (idx + 1) ≤ ws.length ∧ idx < 4 then some ((ws.drop (228 * idx)).take 228) else none
/-- Is receive start set `p` present (R183)? -/
def Bundle.hasStart (b : Bundle) (k p : Nat) : Bool :=
  match b.sect 0x0B (lineOfHost k) with
  | none => decide (p ≤ 3)
  | some ws => decide (p ≤ ws.length / 16)
/-- Transmit taps of a preset (Table 6-2). -/
def Bundle.preset (b : Bundle) (k p : Nat) : List Int :=
  let factory : List Int :=
    match p with
    | 2 => [0, 0, -4, 56, -4, 0]
    | 3 => [0, 0, -8, 50, -6, 0]
    | 4 => [0, 2, -10, 46, -6, 0]
    | 5 => [-2, 4, -12, 42, -4, 0]
    | _ => [0, 0, 0, 64, 0, 0]
  if p < 2 ∨ p > 5 then factory
  else match b.sect 0x0C (lineOfHost k) with
    | none => factory
    | some ws => ((ws.drop (6 * (p - 2))).take 6).map fun w => sgn 16 w
/-- Grant mask of a target, 0 to 7 line, 8 to 23 host (R225). -/
def Bundle.grant (b : Bundle) (t : Nat) : Nat :=
  match b.sect 0x0F (if t < 8 then t else lineOfHost (t - 8)) with
  | some ws => ws.getD t 0
  | none => 0

/-- The initial (section 0x05) or conservative (0x06) FFE set of a tap count: SET_ID, count, 33 taps in the form of kind
0x03, one set per count in ascending order (log 15). -/
def Bundle.ffeSet (b : Bundle) (typ n count : Nat) : Option (List Nat) :=
  (b.sect typ n).map fun ws => (ws.drop (35 * ((count - 17) / 4))).take 35

/-- The Joiner schedule of section 0x0D: header and slot words, low halves first (R207, R211). -/
def Bundle.sched (b : Bundle) : Option (List Nat) := (b.sections.find? fun x => decide (x.typ = 0x0D)).map (·.words)

/-- Ranges of Table 6-2, and the sum of magnitudes (R184). -/
def txTapsOk (taps : List Int) : Bool :=
  let r : List (Int × Int) := [(-8, 0), (0, 16), (-32, 0), (32, 64), (-16, 0), (-8, 8)]
  decide (taps.length = 6) &&
  (List.range 6).all (fun i => decide ((r.getD i (0, 0)).1 ≤ taps.getD i 0 ∧ taps.getD i 0 ≤ (r.getD i (0, 0)).2)) &&
  decide ((taps.map Int.natAbs).sum ≤ 64)

/-- FFE tap limit of a throttle level (Table 13-3). -/
def tapLimit (level : Nat) : Nat :=
  match level with
  | 0 => 33
  | 1 => 29
  | 2 => 25
  | 3 => 21
  | _ => 17
/-- Class ceiling limit of a throttle level (Table 13-3). -/
def ceilLimit (level : Nat) : Nat :=
  if level ≤ 4 then 16 else if level = 5 then 12 else if level = 6 then 8 else if level = 7 then 4 else 0
/-- RG_DUTY of a throttle level (Table 13-3). -/
def dutyOf (level : Nat) : Nat := if level ≤ 8 then 0 else level - 8

end Sys2Proof.Machine
end

