-- ==== Sys2Proof/Machine/Flags.lean ====
section
/-!
DEFINITION. Saturation, rounding and the sticky flags of the Joiner (R247 to R249, Table 8-2).
-/

namespace Sys2Proof.Machine

/-- rnd(x, s) of R247. -/
def rnd (x : Int) (s : Nat) : Int := if s = 0 then x else asr (x + ((2 ^ (s - 1) : Nat) : Int)) s

/-- The signed lanes of a vector. -/
def lanes {w : Nat} (v : List (BitVec w)) : List Int := v.map BitVec.toInt

/-- Is any lane enabled by the mask outside the signed `w`-bit range? -/
def clamps (w : Nat) (mask : Word) (xs : List Int) : Bool :=
  (List.range xs.length).any fun k => mask.getLsbD k && decide (sat w (xs.getD k 0) ≠ xs.getD k 0)

/-- Saturate every lane. -/
def satLanes (w : Nat) (xs : List Int) : List (BitVec w) := xs.map fun x => BitVec.ofInt w (sat w x)
/-- Wrap every lane. -/
def wrapLanes (w : Nat) (xs : List Int) : List (BitVec w) := xs.map fun x => BitVec.ofInt w x

/-- SATF bits an operation sets: bit 4 for 16-bit lanes, bit a for accumulator a. -/
def satBit (i : Nat) (on : Bool) : Word := if on then BitVec.ofNat 32 (2 ^ i) else 0

/-- Redundant sign bits: bits below the sign bit that equal it, counted from the top (R249). -/
def redundant {w : Nat} (x : BitVec w) : Nat :=
  go (w - 1)
where
  go : Nat → Nat
    | 0 => 0
    | k + 1 => if x.getLsbD k = x.msb then 1 + go k else 0

/-- The least value over enabled lanes, `none` where no lane is enabled (R247). -/
def minEnabled (mask : Word) (xs : List Nat) : Option Nat :=
  (List.range xs.length).foldl (fun m k =>
    if mask.getLsbD k then
      (match m with
      | none => some (xs.getD k 0)
      | some y => some (min y (xs.getD k 0)))
    else m) none

/-- A predicate word from lane results; disabled lanes give 0 (Table 8-9). -/
def predWord (mask : Word) (bs : List Bool) : Word :=
  BitVec.ofNat 32 ((List.range bs.length).foldl (fun m k => if mask.getLsbD k && bs.getD k false then m + 2 ^ k else m) 0)

/-- Lanes of `new` where the mask is set, of `old` elsewhere. -/
def blend {α : Type} (d : α) (mask : Word) (new old : List α) : List α :=
  (List.range 32).map fun k => if mask.getLsbD k then new.getD k d else old.getD k d

end Sys2Proof.Machine
end

