-- ==== Sys2Proof/Machine/Operands.lean ====
section
/-!
DEFINITION. Operand forms of the Joiner's instructions: register naming under rotation (R258), predicates and stage
gates (R259), second operands (R246), address modes (R242), and who may reach which address (R225, R240).
-/

namespace Sys2Proof.Machine

/-- The physical register a vector name refers to (R258). -/
def Joiner.phys (j : Joiner) (r : Nat) : Nat :=
  let w := if j.rotSmall then 16 else 32
  let b := 64 - w
  if r < b then r else b + (r - b + w - j.rotofs) % w

def Joiner.rdV (j : Joiner) (r : BitVec 6) : List Half := lanes32 0 (j.v.getD (j.phys r.toNat) [])
/-- An accumulator as the MAC group reads it (Table 8-3, latency 1). -/
def Joiner.rdAccF (j : Joiner) (r : BitVec 2) : List Acc := lanes32 0 (j.accF.getD r.toNat [])
/-- An accumulator as any other reader sees it (latency 2). -/
def Joiner.rdAccV (j : Joiner) (r : BitVec 2) : List Acc := lanes32 0 (j.accV.getD r.toNat [])
def Joiner.rdS (j : Joiner) (r : BitVec 4) : Word := j.s.getD r.toNat 0
def Joiner.rdA (j : Joiner) (r : BitVec 4) : Word := j.a.getD r.toNat 0
def Joiner.rdM (j : Joiner) (r : BitVec 3) : Word := j.m.getD r.toNat 0
/-- A predicate; P0 reads all ones (Table 8-1). -/
def Joiner.rdP (j : Joiner) (r : BitVec 3) : Word := if r = 0 then 0xFFFFFFFF else j.p.getD r.toNat 0

/-- Iterations of the block already completed (R258). -/
def RepBlock.iter (b : RepBlock) : Nat := (if b.rot then b.count + b.stages - 1 else b.count) - 1 - b.left
/-- Is stage `s` enabled in the current iteration (R259)? -/
def RepBlock.stageOn (b : RepBlock) (s : Nat) : Bool := decide (s ≤ b.iter ∧ b.iter ≤ b.count - 1 + s)
/-- STGMASK (Table 8-2): zero outside a ROT block. -/
def Joiner.stgMask (j : Joiner) : Word :=
  match j.rep with
  | some b => if b.rot then
      BitVec.ofNat 32 ((List.range b.stages).foldl (fun m s => if b.stageOn s then m + 2 ^ s else m) 0) else 0
  | none => 0
/-- Is a ROT block running? -/
def Joiner.inRot (j : Joiner) : Bool := match j.rep with
  | some b => b.rot
  | none => false

/-- The lanes an X syllable writes under its PRED code (R247, R259). -/
def Joiner.laneMask (j : Joiner) (pred : BitVec 3) : Word :=
  if j.inRot && decide (4 ≤ pred.toNat) then
    (if (j.stgMask).getLsbD (pred.toNat - 4) then 0xFFFFFFFF else 0)
  else j.rdP pred

/-- Does a YM syllable with gate field G make its access (R259)? Codes 1 to 3 are reserved. -/
def Joiner.gateOn (j : Joiner) (g : BitVec 3) : Bool :=
  if g = 0 then true else if j.inRot then j.stgMask.getLsbD (g.toNat - 4) else true

/-- The second operand of a scalar operation (Table 8-8). -/
def Joiner.src (j : Joiner) : Src → Word
  | .reg sb => j.rdS sb
  | .imm v => v.signExtend 32

/-- Effective address and update of A (Table 8-5) for an access of `size` bytes; none for the reserved mode. -/
def Joiner.ea (j : Joiner) (x : Mem) (size : Nat) : Option (Word × Option Word) :=
  let a := j.rdA x.a
  let post := a + j.rdM x.m
  match x.amode.toNat with
  | 0 => some (a + x.imm.signExtend 32 * BitVec.ofNat 32 size, none)
  | 1 => some (a, some post)
  | 2 =>
    let cl := (j.cl.getD x.m.toNat 0).toNat
    let cb := (j.cb.getD x.m.toNat 0).toNat
    if cl = 0 then some (a, some post)
    else some (a, some (BitVec.ofInt 32 ((cb : Int) + ((a.toNat : Int) - cb + (j.rdM x.m).toInt) % (cl : Int))))
  | _ => none

/-- The kinds of address of Table 8-4. -/
inductive Area where
  | dm
  | aperture (cluster bank word : Nat)
  | capStatus (cluster off : Nat)
  | nothing
  deriving DecidableEq, Repr

/-- What an address names (Table 8-4). -/
def areaOf (ea : Nat) : Area :=
  if ea < 0x80000 then .dm
  else if 0x80000 ≤ ea ∧ ea < 0x80000 + 0x4000 * 24 then
    .aperture ((ea - 0x80000) / 0x4000) ((ea - 0x80000) % 0x4000 / 0x2000) ((ea - 0x80000) % 0x2000 / 16)
  else if 0xE0000 ≤ ea ∧ ea < 0xE0000 + 0x20 * 24 then .capStatus ((ea - 0xE0000) / 0x20) ((ea - 0xE0000) % 0x20)
  else .nothing


/-- Cluster number (0 to 7 line, 8 to 23 host) of a target code (Table 7-4). -/
def clusterOf (tgt : Nat) : Nat := if tgt < 8 then tgt else tgt - 8
/-- Is a code a line or host target? -/
def isTarget (tgt : Nat) : Bool := decide (tgt < 8 ∨ (16 ≤ tgt ∧ tgt < 32))
/-- Die of a target code. -/
def dieOfTarget (tgt : Nat) : Nat := if tgt < 8 then dieOfLine tgt else dieOfHost (tgt - 16)

/-- Kind of the running slot; 0 where none runs. -/
def State.runKind (s : State) (d : Nat) : Nat :=
  match (s.jn d).slot with
  | some k => slotKind (s.rd (JNR.SCHED d k))
  | none => 0
/-- Target of the running slot. -/
def State.runTarget (s : State) (d : Nat) : Nat :=
  match (s.jn d).slot with
  | some k => slotTarget (s.rd (JNR.SCHED d k))
  | none => 0
/-- Is a USER slot running? -/
def State.isUser (s : State) (d : Nat) : Bool := decide (s.runKind d = 6)

/-- Publish kinds by their codes (Table 7-7), as areas of the windows: start address and length of the working buffer
a publish names. The layout inside the small-set record is a design choice (log 8). -/
def pubBuffer (kind tgt : Nat) : Nat × Nat :=
  let w := 0x40000 + 0x4000 * tgt
  match kind with
  | 1 => (w, 0x2000)
  | 2 => (w + 0x2000, 0x800)
  | 3 => (w + 0x2800, 68)
  | 4 => (w + 0x2844, 4)
  | 5 => (w + 0x2848, 264)
  | 6 => (w + 0x2950, 16)
  | 8 => (0x60000 + 0x800 * (tgt - 16), 0x100)
  | _ => (0, 0)

/-- Address of a publish status word (R252). -/
def pubStatusAddr (kind tgt : Nat) : Nat :=
  if kind = 8 then 0x60000 + 0x800 * (tgt - 16) + 0x100 else 0x40000 + 0x4000 * tgt + 0x2A00 + 4 * (kind - 1)

/-- Is kind `k` granted to user code on a target (Table 7-17)? -/
def State.granted (s : State) (d tgt kind : Nat) : Bool :=
  decide (kind ≥ 1) && s.bit (JNR.USER_GRANT d (clusterOf tgt)) (kind - 1)

/-- Do `len` bytes at `a` lie inside `n` bytes at `b`? -/
def inside (a len b n : Nat) : Bool := decide (b ≤ a ∧ a + len ≤ b + n)
/-- Do two ranges meet? -/
def meets (a len b n : Nat) : Bool := decide (a < b + n ∧ b < a + len)

/-- The transmit sense ring of a lane: 128 entries of 32 bits at the head of the factory recipe state (R275, log 11). -/
def senseRing (n : Nat) : Nat := 0x42A20 + 0x4000 * n

/-- May a USER slot with this target read these bytes of data memory (Table 7-13)? Not the transmit sense ring (R275). -/
def userRead (tgt a len : Nat) : Bool :=
  if tgt < 8 then
    (inside a len (0x40000 + 0x4000 * tgt) 0x4000 && !meets a len (senseRing tgt) 512) || inside a len (0x2000 * tgt) 0x2000 ||
    inside a len (0x10000 + 0x800 * tgt) 0x800 || inside a len (0x14000 + 0x200 * tgt) 0x200 ||
    inside a len (0x15800 + 98 * tgt) 98
  else
    let k := tgt - 16
    inside a len (0x60000 + 0x800 * k) 0x800 || inside a len (0x15000 + 0x80 * k) 0x80 ||
    inside a len (0x15800 + 784 + 14 * k) 14

/-- Is a store to these bytes a store into the buffer of a publish not yet released (R223)? -/
def State.locked (s : State) (a len : Nat) : Bool :=
  s.pubs.any fun p => let b := pubBuffer p.kind p.tgt; decide (b.2 ≠ 0) && meets a len b.1 b.2

/-- May a USER slot of Joiner `d` store to these bytes (Table 7-13, R223)? -/
def State.userWrite (s : State) (d tgt a len : Nat) : Bool :=
  !s.locked a len &&
  (if tgt < 8 then
    inside a len (0x40000 + 0x4000 * tgt + 0x3000) 0x1000 ||
    [1, 2, 3, 4].any fun k => s.granted d tgt k && (let b := pubBuffer k tgt; inside a len b.1 b.2)
  else
    inside a len (0x60000 + 0x800 * (tgt - 16) + 0x400) 0x400 ||
    (s.granted d tgt 8 && (let b := pubBuffer 8 tgt; inside a len b.1 b.2)))

/-- May the running slot read these bytes? -/
def State.mayRead (s : State) (d ea len : Nat) : Bool :=
  !s.isUser d || userRead (s.runTarget d) ea len
/-- May the running slot read this cluster's FIFO? -/
def State.mayCapture (s : State) (d cluster : Nat) : Bool :=
  !s.isUser d || decide (clusterOf (s.runTarget d) = cluster)
/-- May the running slot store to these bytes? -/
def State.mayWrite (s : State) (d ea len : Nat) : Bool :=
  !s.isUser d || s.userWrite d (s.runTarget d) ea len

/-- Bytes of data memory. -/
def dmBytes (dm : List (Nat × Nat)) (a : Nat) : Nat → List Nat
  | 0 => []
  | n + 1 => spGet 0 dm a :: dmBytes dm (a + 1) n
/-- A 16-bit item, low byte first (R241). -/
def dmHalf (dm : List (Nat × Nat)) (a : Nat) : Nat := spGet 0 dm a + 256 * spGet 0 dm (a + 1)
/-- A 32-bit item, low byte first. -/
def dmWord (dm : List (Nat × Nat)) (a : Nat) : Nat := dmHalf dm a + 65536 * dmHalf dm (a + 2)
/-- Store `n` bytes of a value, low byte first. -/
def dmPut (dm : List (Nat × Nat)) (a n v : Nat) : List (Nat × Nat) :=
  match n with
  | 0 => dm
  | n + 1 => dmPut (spSet 0 dm a (v % 256)) (a + 1) n (v / 256)
/-- Store 32 lanes at `a` (R241). -/
def dmPutV (dm : List (Nat × Nat)) (a : Nat) : List Half → List (Nat × Nat)
  | [] => dm
  | h :: hs => dmPutV (dmPut dm a 2 h.toNat) (a + 2) hs

/-- Is the Joiner of a die usable (R427)? -/
def State.joinerUsable (s : State) (d : Nat) : Bool :=
  s.bit RST.PAIR_USABLE (2 * d + 1) && decide (s.rd (RST.SIMD_HEALTH d) = 0xFFFFFFFF)
/-- The Joiner that serves a die (R42, R427). -/
def State.servJ (s : State) (die : Nat) : Nat :=
  let c := if s.split then die else s.rd DEV.SERVING_DIE
  if s.joinerUsable c then c else 1 - c

/-- Master area of a publish kind on a target: start address and length (R202, log 8). -/
def masterArea (kind tgt : Nat) : Nat × Nat :=
  match kind with
  | 1 => (0x2000 * tgt, 0x2000)
  | 2 => (0x10000 + 0x800 * tgt, 0x800)
  | 3 => (0x14000 + 0x200 * tgt, 68)
  | 4 => (0x14000 + 0x200 * tgt + 68, 4)
  | 5 => (0x14000 + 0x200 * tgt + 72, 264)
  | 6 => (0x14000 + 0x200 * tgt + 336, 16)
  | 8 => (0x15000 + 0x80 * (tgt - 16), 32)
  | _ => (0, 0)
/-- Address of the stamps of a master copy: SET_ID, EPOCH, TEMP, CFG_GEN (R223, log 8). -/
def stampArea (kind tgt : Nat) : Nat :=
  if kind = 8 then 0x15800 + 784 + 14 * (tgt - 16) else 0x15800 + 98 * tgt + 14 * (kind - 1)
/-- EPOCH and TEMP of a master copy. -/
def State.masterStamp (s : State) (d kind tgt : Nat) : Nat × Nat :=
  let dm := (s.jn d).dm
  let a := stampArea kind tgt
  (dmWord dm (a + 2) + 2 ^ 32 * dmHalf dm (a + 6), dmHalf dm (a + 8))
/-- An entry of a context (kind 1) or shaping (kind 2) master copy (R123). -/
def State.masterEntry (s : State) (kind n addr : Nat) : Nat :=
  dmHalf (s.jn (s.servJ (dieOfLine n))).dm ((masterArea kind n).1 + 2 * addr)
/-- Copy 16-bit words into data memory. -/
def dmPutHalves (dm : List (Nat × Nat)) (a : Nat) : List Nat → List (Nat × Nat)
  | [] => dm
  | w :: ws => dmPutHalves (dmPut dm a 2 w) (a + 2) ws
/-- Write the stamps of a master copy. -/
def dmPutStamp (dm : List (Nat × Nat)) (a setId epoch temp gen : Nat) : List (Nat × Nat) :=
  dmPut (dmPut (dmPut (dmPut dm a 2 setId) (a + 2) 6 epoch) (a + 8) 2 temp) (a + 10) 4 gen

/-- A 32-bit word under its check: zero where uncorrectable (R204). -/
def eccWord (dm : List (Nat × Nat)) (a : Nat) (bad : Bool) : Nat := if bad then 0 else dmWord dm a

end Sys2Proof.Machine
end

