-- ==== Sys2Proof/Machine/JoinerPipe.lean ====
section
/-!
DEFINITION. The Joiner's pipeline: issue, results in flight, retirement, delay slots, repeat blocks, stalls, the
performance counters, illegal instructions and sandbox faults (R226 to R229, R235 to R239, R244, R251, R257 to R260,
R263).
-/

namespace Sys2Proof.Machine

/-- Destination numbers, for the rule that two syllables of a bundle never name one register (R239). -/
def destV (r : Nat) : Nat := r
def destAcc (r : Nat) : Nat := 64 + r
def destP (r : Nat) : Nat := 72 + r
def destS (r : Nat) : Nat := 80 + r
def destA (r : Nat) : Nat := 96 + r
def destM (r : Nat) : Nat := 112 + r
def destC (r : Nat) : Nat := 120 + r
def destX (r : Nat) : Nat := 130 + r

/-- Add to one performance counter, carrying into its chained partner (R227). -/
def State.bumpCounter (s : State) (d k n : Nat) : State :=
  let v := s.rd (JNR.PC_VAL d k) + n
  let s := s.wr (JNR.PC_VAL d k) v
  if k % 2 = 0 ∧ s.bit (JNR.PC_CTRL d k) 30 ∧ v ≥ 2 ^ 32 then s.inc (JNR.PC_VAL d (k + 1)) else s

/-- Does counter `k` count this event in this slot (Table 7-14)? -/
def State.counterOn (s : State) (d k ev : Nat) (slot : Option Nat) : Bool :=
  let c := s.rd (JNR.PC_CTRL d k)
  c.testBit 31 && decide (bits c 23 16 = ev) &&
  (decide (bits c 15 8 = 0xFF) || decide (slot = some (bits c 15 8))) &&
  !(decide (k % 2 = 1) && s.bit (JNR.PC_CTRL d (k - 1)) 30)

/-- Count `n` events of Table 7-15 on Joiner `d`. -/
def State.countEv (s : State) (d ev n : Nat) : State :=
  if n = 0 then s else
    (List.range 8).foldl (fun s k => if s.counterOn d k ev (s.jn d).slot then s.bumpCounter d k n else s) s

/-- Lane writes of a vector register. -/
def Joiner.putV (j : Joiner) (r : Nat) (mask : Word) (val : List Half) : Joiner :=
  { j with v := modNth [] j.v r (blend 0 mask val) }

/-- The effect of a result on the registers (Table 8-1). -/
def Joiner.apply (j : Joiner) : Eff → Joiner
  | .vec r mask val => j.putV r mask val
  | .accFwd r mask val => { j with accF := modNth [] j.accF r (blend 0 mask val) }
  | .acc r mask val => { j with accV := modNth [] j.accV r (blend 0 mask val) }
  | .sat b => { j with satf := j.satf ||| b }
  | .scalar r val => { j with s := setNth 0 j.s r val }
  | .addr r val => { j with a := setNth 0 j.a r val }
  | .offset r val => { j with m := setNth 0 j.m r val }
  | .circ r base len => { j with cb := setNth 0 j.cb r base, cl := setNth 0 j.cl r len }
  | .pred r val => if r = 0 then j else { j with p := setNth 0 j.p r val }
  | .special r val =>
    if r = 2 then { j with lr := val }
    else if r = 3 then { j with satf := val }
    else if r = 8 then { j with epc := val }
    else j
  | _ => j

/-! ### Results in flight (R236, R239) -/

/-- The register a result writes, as a destination number; the forwarded accumulator is a register of its own. -/
def Eff.dest : Eff → Option Nat
  | .vec r _ _ => some (destV r)
  | .accFwd r _ _ => some (68 + r)
  | .acc r _ _ => some (destAcc r)
  | .pred r _ => some (destP r)
  | .scalar r _ | .askPub r _ _ _ | .askCap r _ _ _ _ _ => some (destS r)
  | .addr r _ => some (destA r)
  | .offset r _ => some (destM r)
  | .circ r _ _ => some (destC r)
  | .special r _ => some (destX r)
  | _ => none

/-- Does an effect wait for retirement, when it acts on more than the registers (R236)? -/
def Eff.retires : Eff → Bool
  | .storeV _ _ _ | .storeS _ _ _ | .pub _ _ _ | .capreq _ _ _ _ _ | .crel _ _ | .reti | .badBranch _ | .count _ => true
  | _ => false
/-- Does an effect still have to be turned into a register value by the checks of PUB and CAPREQ (R252, R253)? -/
def Eff.asks : Eff → Bool
  | .askPub _ _ _ _ | .askCap _ _ _ _ _ _ => true
  | _ => false

/-- Does the later-issued result `f` discard `g`, which arrives in the same cycle for the same register (R239)? A result that
arrives in an accumulator discards an earlier one on its way to either reader. -/
def Flight.beats (f g : Flight) : Bool :=
  decide (f.due = g.due ∧ g.issue < f.issue) &&
    (match f.eff, g.eff with
    | .acc r _ _, .accFwd q _ _ => decide (r = q)
    | a, b => a.dest.isSome && decide (a.dest = b.dest))

/-- Where a flight stands among those of the same cycle: saturation flags land last (Table 8-12). -/
def Flight.key (f : Flight) : Nat := 2 * f.due + (match f.eff with
  | .sat _ => 1
  | _ => 0)

/-- Insert a flight behind those that land earlier or were issued before it. -/
def insertFlight (f : Flight) : List Flight → List Flight
  | [] => [f]
  | g :: gs => if f.key < g.key then f :: g :: gs else g :: insertFlight f gs

/-- Write the results of the chosen flights into the registers and take them out of flight (R239). -/
def Joiner.land (j : Joiner) (p : Flight → Bool) : Joiner :=
  let fs := j.flights.filter p
  let j := { j with flights := j.flights.filter fun f => !p f }
  fs.foldl (fun j f => if fs.any fun g => g.beats f then j else j.apply f.eff) j

/-- The registers as a bundle issued now reads them: results that have arrived, retired or not (R236). -/
def Joiner.view (j : Joiner) : Joiner := j.land fun f => decide (f.due ≤ j.cycle)
/-- The registers a bundle issued now on Joiner `d` reads. -/
def State.jv (s : State) (d : Nat) : Joiner := (s.jn d).view

/-- Make the results of retired bundles final; one that arrived behind a result still open waits for it. -/
def Joiner.settle (j : Joiner) : Joiner :=
  let pending := j.flights.filter fun f => decide (j.cycle < f.ret)
  j.land fun f => decide (f.due ≤ j.cycle) && !f.eff.retires && pending.all fun o => decide (f.due < o.due)

/-- End the running slot at a cycle: what has not retired by then is discarded (R212, R226). -/
def Joiner.cutAt (j : Joiner) (c : Nat) : Joiner :=
  { j.land fun f => decide (f.ret ≤ c) with
    slot := none, flights := [], xFlights := [], xDone := false, xDest := none, xLat := 0, branch := none
    delay := 0, badBranch := none, rep := none, yieldAt := none }
/-- End the running slot at once. -/
def Joiner.cut (j : Joiner) : Joiner := j.cutAt j.cycle

/-! ### The end of a run -/

/-- Registers of a USER slot do not outlive it, and none reaches one (R234). -/
def Joiner.clearRegs (j : Joiner) : Joiner :=
  let z := Joiner.reset
  { j with v := z.v, accF := z.accF, accV := z.accV, s := z.s, a := z.a, m := z.m, cb := z.cb, cl := z.cl, p := z.p,
           lr := 0, satf := 0, rotofs := 0, rotSmall := false }

/-- End the running slot, its remaining cycles still being core cycles of the slot (R227), at slot cycle `c`. -/
def State.leaveSlot (s : State) (d c : Nat) : State :=
  let user := s.isUser d
  let s := s.countEv d 0x01 ((s.jn d).slotLen - (s.jn d).cycle)
  let s := s.modJn d fun j => j.cutAt c
  if user then s.modJn d Joiner.clearRegs else s

/-- Count a run that did not end in time towards the revert of R213, for a USER slot. -/
def State.userOverrun (s : State) (d k : Nat) : State :=
  let n := ((s.jn d).slots.getD k .reset).overruns + 1
  let s := s.modSlot d k fun b => { b with overruns := n }
  let w := s.rd (JNR.SCHED d k)
  if slotKind w = 6 ∧ n ≥ s.rd (JNR.LATE_LIMIT d) then s.modSlot d k fun b => { b with revertDue := true } else s

/-- Does a commit that brings Joiner `d` a schedule take effect at boundary `t`? -/
def State.schedAt (s : State) (d t : Nat) : Bool :=
  s.doms.any fun m => match m.commit with
    | some c => c.armed && reached t c.target &&
        (c.tables.any (fun x => decide (x.kind = 0x0D ∧ x.inst = d)) || (c.bundle.bind Bundle.sched).isSome)
    | none => false

/-- At boundary `t` the slots due revert to IDLE (R213); a schedule commit at the same boundary drops the reverts (R230). -/
def State.revertSlots (s : State) (d t : Nat) : State :=
  let due := (List.range 32).filter fun k => ((s.jn d).slots.getD k .reset).revertDue
  if s.schedAt d t then s
  else due.foldl (fun s k =>
    let w := s.rd (JNR.SCHED d k)
    let s := s.modSlot d k fun b => { b with reverted := true, revertDue := false }
    (s.inc (JNR.USER_REVERT_CNT d)).logEv
      { level := 1, irq := true, die1 := decide (d = 1), inst := d, code := 0x3003,
        detail := slotEntry w * 256 + slotTarget w, data := [byteOf k] }) s

/-- A sandbox fault of the running USER slot (R226), which is cut off in slot cycle `c`. -/
def State.sandboxAt (s : State) (d addr c : Nat) : State :=
  match (s.jn d).slot with
  | none => s
  | some k =>
    let w := s.rd (JNR.SCHED d k)
    let s := (s.countEv d 0x0D 1).inc (JNR.SANDBOX_CNT d)
    let s := s.logEv { level := 1, die1 := decide (d = 1), inst := d, code := 0x3004, detail := addr,
                       data := [byteOf (slotEntry w), byteOf (slotTarget w)] }
    (s.leaveSlot d c).userOverrun d k
/-- A sandbox fault of an instruction as it issues. -/
def State.sandboxFault (s : State) (d addr : Nat) : State := s.sandboxAt d addr (s.jn d).cycle

/-- An exception of factory code in slot cycle `c` (R229, R263): the run ends, the Joiner waits for its restart. -/
def State.exceptionAt (s : State) (d c : Nat) : State :=
  (s.leaveSlot d c).modJn d fun j => { j with fault := true }

/-- An illegal instruction (R263): a sandbox fault in USER code, a factory-code exception otherwise. -/
def State.illegal (s : State) (d : Nat) : State :=
  if s.isUser d then s.sandboxFault d (s.jn d).pc else s.exceptionAt d (s.jn d).cycle

/-- The fault of a branch out of the code it may reach, once its delay slots have executed: all they have in flight is
written (R251). -/
def State.branchFault (s : State) (d t : Nat) : State :=
  let c := (s.jn d).slotLen
  if s.isUser d then s.sandboxAt d t c else s.exceptionAt d c

/-! ### Issue -/

/-- Is a bundle issuing: a slot runs, YIELD has not issued, and the slot has a cycle left? -/
def Joiner.issuing (j : Joiner) : Bool :=
  j.slot.isSome && j.yieldAt.isNone && decide (j.cycle < j.slotLen) && !j.fault

/-- Does program memory hold a bundle at the program address whose two syllables are legal words (R245, R246, R263)? The
low word is the Y syllable (R235). DESIGN CHOICE: bytes lie low first (log 178). -/
def Joiner.bundleOk (j : Joiner) : Bool :=
  (decodeY 0 (BitVec.ofNat 32 (dmWord j.pm j.pc))).isSome && (decodeX 0 (BitVec.ofNat 32 (dmWord j.pm (j.pc + 4)))).isSome

/-- Issue an X syllable: `lat` its longest latency, `dest` its destination, `effs` its results with their latencies. -/
def State.xOp (s : State) (d : Nat) (legal : Bool) (dest lat : Nat) (mac : Bool) (effs : List (Nat × Eff)) : State :=
  let j := s.jn d
  if !j.issuing || j.xDone then s
  else if !(legal && j.bundleOk) then s.illegal d
  else
    s.modJn d fun j => { j with
      xDone := true, xDest := some dest, xLat := lat
      xFlights := (effs ++ [(0, Eff.count 0x02)] ++ (if mac then [(0, Eff.count 0x03)] else [])).map
        fun (e : Nat × Eff) => ⟨j.cycle, j.cycle + e.1, 0, e.2⟩ }

/-- The next bundle address after one that is not the target of a branch (R257, R258). -/
def Joiner.nextInBlock (j : Joiner) : Joiner :=
  match j.rep with
  | none => { j with pc := j.pc + 8 }
  | some b =>
    if b.pos + 1 < b.len then { j with pc := j.pc + 8, rep := some { b with pos := b.pos + 1 } }
    else
      let j := if b.rot then { j with rotofs := (j.rotofs + 1) % (if b.small then 16 else 32) } else j
      if b.left = 0 then { j with pc := j.pc + 8, rep := none }
      else { j with pc := b.start, rep := some { b with pos := 0, left := b.left - 1 } }

/-- Move to the next bundle, counting delay slots (R238). -/
def Joiner.advance (j : Joiner) (stall : Nat) : Joiner :=
  let j := { j with cycle := j.cycle + 1 + stall, xDone := false, xDest := none, xLat := 0, xFlights := [],
                    delay := j.delay - 1 }
  match j.branch with
  | none => j.nextInBlock
  | some (n, t) => if n ≤ 1 then { j with pc := t, branch := none } else { j with pc := j.pc + 8, branch := some (n - 1, t) }

/-- Put the results of the bundle that completes now into flight: X syllable results and those of the Y syllable, delayed
by its stall. A bundle that would retire after the slot's last cycle is discarded whole, as is every one after it (R237,
R264). -/
def Joiner.complete (j : Joiner) (stall lat : Nat) (effs : List (Nat × Eff)) : Joiner :=
  let ret := j.cycle + stall + max 2 (max lat j.xLat)
  let fs := j.xFlights.map (fun f => { f with issue := f.issue + stall, due := f.due + stall }) ++
    effs.map fun (e : Nat × Eff) => (⟨j.cycle + stall, j.cycle + stall + e.1, 0, e.2⟩ : Flight)
  let fs := fs.map fun f => { f with due := if f.eff.retires then ret else f.due, ret := ret }
  if ret < j.slotLen then { j with flights := fs.foldl (fun l f => insertFlight f l) j.flights } else j

/-! ### Retirement -/

/-- A store that lands in a locked buffer is discarded: a sandbox fault of a USER slot, counted for a factory slot (R223). -/
def State.lockHit (s : State) (d ea c : Nat) : State :=
  if s.isUser d then s.sandboxAt d ea c else s.inc (JNR.DM_LOCK_CNT d)

/-- What an effect beyond the registers does when it lands; publishes, captures and releases are given by the caller. A run
that has ended lands nothing more. -/
def State.landEff (sysEff : State → Nat → Flight → State) (s : State) (d : Nat) (f : Flight) : State :=
  if (s.jn d).slot.isNone then s
  else match f.eff with
  | .storeV ea _ val =>
    if s.locked ea 64 then s.lockHit d ea f.due else s.modJn d fun j => { j with dm := dmPutV j.dm ea val }
  | .storeS ea _ val =>
    if s.locked ea 4 then s.lockHit d ea f.due else s.modJn d fun j => { j with dm := dmPut j.dm ea 4 val.toNat }
  | .count ev => s.countEv d ev 1
  | .badBranch t => s.modJn d fun j => { j with badBranch := some t }
  | .reti => s.modJn d fun j => { j with irqEnabled := true }
  | _ => sysEff s d f

/-- Perform every effect beyond the registers due by slot cycle `c`, and settle the registers. -/
def State.landDue (sysEff : State → Nat → Flight → State) (s : State) (d c : Nat) : State :=
  let due := (s.jn d).flights.filter fun f => decide (f.due ≤ c) && (f.eff.retires || f.eff.asks)
  let s := s.modJn d fun j => { j with flights := j.flights.filter fun f => !(decide (f.due ≤ c) && f.eff.retires) }
  (due.foldl (fun s f => s.landEff sysEff d f) s).modJn d fun j => j.settle

/-- The data memory a load issued now reads: what has retired, and stores it must already see (Table 8-3). -/
def Joiner.loadDm (j : Joiner) : List (Nat × Nat) :=
  j.flights.foldl (fun dm f => match f.eff with
    | .storeV ea seen val => if seen ≤ j.cycle then dmPutV dm ea val else dm
    | .storeS ea seen val => if seen ≤ j.cycle then dmPut dm ea 4 val.toNat else dm
    | _ => dm) j.dm

/-- Does a load issued now meet the retirement of an earlier store on its data memory bank (R244)? -/
def Joiner.rowConflict (j : Joiner) (ea : Nat) : Bool :=
  j.flights.any fun f => decide (f.due = j.cycle + 1) && (match f.eff with
    | .storeV e _ _ | .storeS e _ _ => decide (e / 0x40000 = ea / 0x40000)
    | _ => false)

end Sys2Proof.Machine
end

