-- ==== Sys2Proof/Machine/Tables.lean ====
section
/-!
DEFINITION. Context and shaping table storage: check bits, replica maps, reads with poison and remap, the correction
tracker, remaps, retirement requests (R116 to R122, R131, R134 to R138).
-/

namespace Sys2Proof.Machine

/-! ### Check bits (R121, R122) -/

/-- Check bits C4 to C0 of a data byte. -/
def checkBits (d : Nat) : Nat :=
  let b := fun i => d.testBit i
  let c0 := (b 0 ^^ b 1 ^^ b 3 ^^ b 4 ^^ b 6)
  let c1 := (b 0 ^^ b 2 ^^ b 3 ^^ b 5 ^^ b 6)
  let c2 := (b 1 ^^ b 2 ^^ b 3 ^^ b 7)
  let c3 := (b 4 ^^ b 5 ^^ b 6 ^^ b 7)
  let c4 := (b 0 ^^ b 1 ^^ b 2 ^^ b 3 ^^ b 4 ^^ b 5 ^^ b 6 ^^ b 7 ^^ c0 ^^ c1 ^^ c2 ^^ c3)
  c0.toNat + 2 * c1.toNat + 4 * c2.toNat + 8 * c3.toNat + 16 * c4.toNat

/-- The 13-bit codeword of a byte (Table 4-2). -/
def codeByte (d : Nat) : Nat := d % 256 + 256 * checkBits (d % 256)
/-- The 26 stored bits of an entry (R121). -/
def storeWord (e : Nat) : Nat := codeByte (e / 256) * 8192 + codeByte e

/-- The outcome of a read (Table 4-4). -/
inductive ReadOut where
  | clean (v : Nat)
  | corrected (v : Nat)
  | bad
  deriving DecidableEq, Repr

/-- Read one 13-bit codeword (Tables 4-3 and 4-4). -/
def readByte (c : Nat) : ReadOut :=
  let d := c % 256
  let s := (checkBits d % 16) ^^^ (bits c 11 8)
  let p := ((List.range 13).filter fun i => c.testBit i).length % 2
  let bitAt : List (Option Nat) :=
    [none, none, none, some 0, none, some 1, some 2, some 3, none, some 4, some 5, some 6, some 7]
  if s = 0 then (if p = 0 then .clean d else .corrected d)
  else if s ≤ 12 ∧ p = 1 then
    (match bitAt.getD s none with
    | some i => .corrected (d ^^^ 2 ^ i)
    | none => .corrected d)
  else .bad

/-- Read the 26 stored bits of an entry. -/
def readWord (w : Nat) : ReadOut :=
  match readByte (w / 8192), readByte (w % 8192) with
  | .bad, _ => .bad
  | _, .bad => .bad
  | .clean h, .clean l => .clean (256 * h + l)
  | .clean h, .corrected l => .corrected (256 * h + l)
  | .corrected h, .clean l => .corrected (256 * h + l)
  | .corrected h, .corrected l => .corrected (256 * h + l)

/-! ### Banks and replicas -/

/-- 0 for context, 1 for shaping. -/
def Tbl.ix : Tbl → Nat
  | .ctx => 0
  | .shp => 1
/-- Entries per set (Table 4-1). -/
def Tbl.size : Tbl → Nat
  | .ctx => 4096
  | .shp => 1024
/-- Ticks after its start at whose end a broadcast write may be complete (R126): 2 for context, half a tick for
shaping. -/
def Tbl.ticks : Tbl → Nat
  | .ctx => 2
  | .shp => 0

def TblMem.bank (m : TblMem) (b : Nat) : List (Nat × Nat) := if b = 0 then m.bank0 else m.bank1
def TblMem.setBank (m : TblMem) (b : Nat) (v : List (Nat × Nat)) : TblMem :=
  if b = 0 then { m with bank0 := v } else { m with bank1 := v }
/-- The stored word of one replica: the broadcast entry with its soft errors. -/
def TblMem.stored (m : TblMem) (b r a : Nat) : Nat :=
  (m.upsets.filter fun u => decide (u.bank = b ∧ u.repl = r ∧ u.addr = a)).foldl (fun w u => w ^^^ u.mask)
    (storeWord (spGet 0 (m.bank b) a))
/-- The stored word of a spare row with its soft errors (R116); a row never written holds the zero entry (R118). -/
def TblMem.row (m : TblMem) (b r row : Nat) : Nat :=
  (m.upsets.filter fun u => decide (u.bank = b ∧ u.repl = r ∧ u.addr = 0x1000 + row)).foldl (fun w u => w ^^^ u.mask)
    (match m.spares.find? fun x => decide (x.1 = b ∧ x.2.1 = r ∧ x.2.2.1 = row) with
    | some x => x.2.2.2
    | none => storeWord 0)
/-- Soft errors the environment brings about. -/
def TblMem.upset (m : TblMem) (us : List Upset) : TblMem := { m with upsets := m.upsets ++ us }

/-- Active bank of a table (CTX.ACT_BANK). -/
def State.actBank (s : State) (n : Nat) (t : Tbl) : Nat := bits (s.rd (CTX.ACT_BANK n)) t.ix t.ix
/-- Address of map entry `r`. -/
def mapAddr (t : Tbl) (n r : Nat) : Nat :=
  match t with
  | .ctx => CTX.REPL_MAP n r
  | .shp => CTX.SHP_MAP n r
def healthAddr (t : Tbl) (n : Nat) : Nat × Nat :=
  match t with
  | .ctx => (CTX.REPL_HEALTH_LO n, CTX.REPL_HEALTH_HI n)
  | .shp => (CTX.SHP_HEALTH_LO n, CTX.SHP_HEALTH_HI n)
def readyAddr (t : Tbl) (n : Nat) : Nat × Nat :=
  match t with
  | .ctx => (CTX.REPL_READY_LO n, CTX.REPL_READY_HI n)
  | .shp => (CTX.SHP_READY_LO n, CTX.SHP_READY_HI n)
/-- A bit of a 66-bit field pair. -/
def State.bit66 (s : State) (a : Nat × Nat) (i : Nat) : Bool :=
  if i < 64 then s.bit a.1 i else s.bit a.2 (i - 64)
def State.wrBit66 (s : State) (a : Nat × Nat) (i : Nat) (b : Bool) : State :=
  if i < 64 then s.wrBit a.1 i b else s.wrBit a.2 (i - 64) b
/-- Is a physical replica usable (R119)? -/
def State.replUsable (s : State) (n : Nat) (t : Tbl) (r : Nat) : Bool := s.bit66 (healthAddr t n) r
/-- Is a physical replica ready (R120)? -/
def State.replReady (s : State) (n : Nat) (t : Tbl) (r : Nat) : Bool := s.bit66 (readyAddr t n) r
/-- The physical replica of a logical one. -/
def State.physRepl (s : State) (n : Nat) (t : Tbl) (r : Nat) : Nat := s.rd (mapAddr t n r)
/-- Does a physical replica serve a logical one? -/
def State.replServes (s : State) (n : Nat) (t : Tbl) (r : Nat) : Bool :=
  (List.range 64).any fun l => decide (s.physRepl n t l = r)
/-- Does a map name 64 distinct replicas? -/
def State.mapDistinct (s : State) (n : Nat) (t : Tbl) : Bool :=
  let m := (List.range 64).map (s.physRepl n t)
  decide (m.eraseDups.length = 64)
/-- Replicas the scrubber and broadcast writes reach: usable ones, and unusable ones left in service (R119). -/
def State.replReached (s : State) (n : Nat) (t : Tbl) : List Nat :=
  (List.range 66).filter fun r => s.replUsable n t r || s.replServes n t r

/-! ### Remap words (R136) -/

/-- A remap word (Table 4-9). -/
def remapWord (t : Tbl) (bank repl row addr : Nat) : Nat :=
  2 ^ 31 + t.ix * 2 ^ 30 + bank * 2 ^ 29 + repl * 2 ^ 22 + row * 2 ^ 20 + addr
/-- Fields of a remap word that name its replica: VALID, TBL, REPLICA. -/
def remapOf (w : Nat) (t : Tbl) (repl : Nat) : Bool :=
  decide (bits w 31 31 = 1 ∧ bits w 30 30 = t.ix ∧ bits w 28 22 = repl)
/-- The spare row that serves an address, where its remap is active. -/
def State.remapRow (s : State) (n : Nat) (t : Tbl) (bank repl addr : Nat) : Option Nat :=
  ((List.range 8).find? fun k =>
    let w := s.rd (CTX.REMAP n k)
    remapOf w t repl && decide (bits w 29 29 = bank ∧ bits w 11 0 = addr) && !(s.tbl n t).newRemaps.any fun x => decide (x.1 = k)).map
    fun k => bits (s.rd (CTX.REMAP n k)) 21 20
/-- Remap words in use. -/
def State.remapsUsed (s : State) (n : Nat) : Nat :=
  ((List.range 8).filter fun k => s.bit (CTX.REMAP n k) 31).length
/-- Remap words of a replica. -/
def State.remapsOf (s : State) (n : Nat) (t : Tbl) (repl : Nat) : Nat :=
  ((List.range 8).filter fun k => remapOf (s.rd (CTX.REMAP n k)) t repl).length

/-- Read one address of one bank of one replica (R117, R136). -/
def State.readRepl (s : State) (n : Nat) (t : Tbl) (bank repl addr : Nat) : ReadOut :=
  match s.remapRow n t bank repl addr with
  | some row => readWord ((s.tbl n t).row bank repl row)
  | none => readWord ((s.tbl n t).stored bank repl addr)
/-- The address whose reads meet a soft error: its own, or for a spare row the one redirected to it (R136). -/
def State.upsetAddr (s : State) (n : Nat) (t : Tbl) (u : Upset) : Option Nat :=
  if u.addr < 0x1000 then some u.addr
  else ((List.range 8).find? fun k =>
    let w := s.rd (CTX.REMAP n k)
    remapOf w t u.repl && decide (bits w 29 29 = u.bank ∧ bits w 21 20 = u.addr - 0x1000)).map
      fun k => bits (s.rd (CTX.REMAP n k)) 11 0

/-! ### Unit retirement requests of the firmware (R136, R137) -/

/-- The target of a new unit commit: the first boundary at least 32 ticks ahead, or the one after a pending host commit,
whichever is later (R137). -/
def State.unitTarget (s : State) : Nat :=
  let base := s.tickno + 32
  s.doms.foldl (fun t d => match d.commit with
    | some c => max t (c.target + 1)
    | none => t) base

/-- Does the management controller serve (R37)? -/
def State.mcServes (s : State) : Bool := decide (s.sys.mcState = 2)
/-- Do two retirements name the same unit? -/
def Retirement.same (r x : Retirement) : Bool := decide (x.kind = r.kind ∧ x.lane = r.lane ∧ x.index = r.index)

/-- The firmware's own retirement joins the pending unit commit, or opens one; while the controller does not serve or a
unit commit is armed it waits (R37, R137, log 161). -/
def State.unitJoin (s : State) (r : Retirement) : State :=
  let wait := if s.asked.any r.same then s else { s with asked := s.asked ++ [r] }
  match s.unit with
  | some u =>
    if u.items.any r.same then s
    else if u.armed || !s.mcServes then wait
    else { s with unit := some { u with items := u.items ++ [r] } }
  | none => if s.mcServes then { s with unit := some ⟨s.unitTarget % 2 ^ 48, false, [r]⟩ } else wait
/-- The retirements that wait are placed as soon as they can be. -/
def State.unitDrain (s : State) : State :=
  if s.mcServes && !(s.unit.any fun u => u.armed) then s.asked.foldl State.unitJoin { s with asked := [] } else s

/-- The kind of unit a replica of a table is. -/
def Tbl.unit : Tbl → UnitKind
  | .ctx => .ctxReplica
  | .shp => .shpReplica
/-- CTX SPARE_OUT bit of a table (Table 4-12). -/
def Tbl.spareOutBit (t : Tbl) : Nat := 2 + t.ix

/-- Set DEGRADED of the side a table serves for want of a spare (R138). -/
def State.spareOut (s : State) (n : Nat) (t : Tbl) : State :=
  let s := s.wrBit (CTX.FLAGS n) t.spareOutBit true
  let s := match t with
    | .ctx => (s.modRx n fun r => { r with degCtxSpare := true }).rxDegraded n
    | .shp => (s.modTx n fun r => { r with degShpSpare := true }).txDegraded n
  s.logEv { level := 1, die1 := decide (n ≥ 4), inst := n, code := 0x1205, detail := t.ix }

/-- Spares of a table that are ready. -/
def State.readySpares (s : State) (n : Nat) (t : Tbl) : List Nat :=
  (List.range 66).filter fun r => s.replUsable n t r && s.replReady n t r && !s.replServes n t r

/-- The firmware's own request to retire a replica: not made without a ready spare (R138). -/
def State.askRetire (s : State) (n : Nat) (t : Tbl) (repl : Nat) : State :=
  if s.readySpares n t = [] then
    if (s.tbl n t).wanted.contains repl ∧ s.bit (CTX.FLAGS n) t.spareOutBit then s else
    (s.modTbl n t fun m => { m with wanted := repl :: m.wanted.filter fun x => decide (x ≠ repl) }).spareOut n t
  else s.unitJoin ⟨t.unit, n, repl, none, none, none⟩

/-- Admission of returning replicas is a unit commit of its own where none is pending (R139), while the controller serves
(R37). -/
def State.unitAdmit (s : State) : State :=
  match s.unit with
  | some _ => s
  | none => if s.mcServes then { s with unit := some ⟨s.unitTarget % 2 ^ 48, false, []⟩ } else s

/-! ### Correction tracker (R134, R135) -/

/-- Key of an address: bits [28:20] and [11:0] of Table 4-8. -/
def trackKey (t : Tbl) (bank repl addr : Nat) : Nat := t.ix * 2 ^ 28 + bank * 2 ^ 27 + repl * 2 ^ 20 + addr
/-- The key of a tracker word. -/
def keyOfTrack (w : Nat) : Nat := bits w 28 20 * 2 ^ 20 + bits w 11 0
/-- A tracker word of this state and count. -/
def trackWord (st count key : Nat) : Nat := 2 ^ 31 + st * 2 ^ 29 + count * 2 ^ 15 + key
/-- The tracker entry of an address. -/
def State.trackFind (s : State) (n key : Nat) : Option Nat :=
  (List.range 16).find? fun k => s.bit (CTX.TRACK n k) 31 && decide (keyOfTrack (s.rd (CTX.TRACK n k)) = key)
/-- The entry a new address takes: a free one, else the COUNTING entry with the lowest count, lowest k (R134). -/
def State.trackPlace (s : State) (n : Nat) : Option Nat :=
  match (List.range 16).find? fun k => !s.bit (CTX.TRACK n k) 31 with
  | some k => some k
  | none => (((List.range 16).filter fun k => decide (bits (s.rd (CTX.TRACK n k)) 30 29 = 0)).foldl (fun b k =>
      match b with
      | none => some k
      | some j => if bits (s.rd (CTX.TRACK n k)) 19 15 < bits (s.rd (CTX.TRACK n j)) 19 15 then some k else some j) none)
/-- Start or clear the watch time of an entry. -/
def State.setWatch (s : State) (n k : Nat) (w : Option Nat) : State :=
  { s with track := modNth ⟨[], [], []⟩ s.track n fun x => { x with watch := modNth none x.watch k fun _ => w } }
/-- Free a tracker entry. -/
def State.trackFree (s : State) (n k : Nat) : State := (s.wr (CTX.TRACK n k) 0).setWatch n k none

/-- A repair of this bank comes to be owed (R132). -/
def State.needRepair (s : State) (n : Nat) (t : Tbl) (bank : Nat) : State :=
  if bank = s.actBank n t then
    (s.modTbl n t fun m => { m with needActive := some (m.needActive.getD (s.nowL n)) }).wrBit (CTX.FLAGS n) 6 true
  else s.modTbl n t fun m => { m with needShadow := some (m.needShadow.getD (s.nowL n)) }

/-- Is an address redirected already? -/
def State.remapped (s : State) (n : Nat) (t : Tbl) (bank repl addr : Nat) : Bool :=
  (List.range 8).any fun k =>
    let w := s.rd (CTX.REMAP n k)
    remapOf w t repl && decide (bits w 29 29 = bank ∧ bits w 11 0 = addr)

/-- Install a remap (R136); `none` where it cannot be made. DESIGN CHOICE: the lowest free word and row; an address
redirected already takes no second one (log 169). -/
def State.remapInstall (s : State) (n : Nat) (t : Tbl) (bank repl addr val : Nat) : Option State :=
  if s.remapsUsed n ≥ 8 ∨ s.remapsOf n t repl ≥ 4 ∨ s.remapped n t bank repl addr then none
  else
    let k := ((List.range 8).find? fun k => !s.bit (CTX.REMAP n k) 31).getD 0
    let taken := fun row => (List.range 8).any fun j =>
      let w := s.rd (CTX.REMAP n j)
      remapOf w t repl && decide (bits w 29 29 = bank ∧ bits w 21 20 = row)
    let row := ((List.range 4).find? fun r => !taken r).getD 0
    let w := remapWord t bank repl row addr
    let s := s.modTbl n t fun m => { m with
      spares := (m.spares.filter fun x => decide (¬ (x.1 = bank ∧ x.2.1 = repl ∧ x.2.2.1 = row))) ++
        [(bank, repl, row, storeWord val)]
      upsets := m.upsets.filter fun u => decide (¬ (u.bank = bank ∧ u.repl = repl ∧ u.addr = 0x1000 + row))
      newRemaps := m.newRemaps ++ [(k, s.later (dieOfLine n) 1)] }
    let s := (s.wr (CTX.REMAP n k) w).inc (CTX.REMAP_CNT n)
    let s := s.wrBit (CTX.FLAGS n) 4 (decide (s.remapsUsed n = 8))
    let s := s.healthChg
    let s := s.logEv { level := 1, die1 := decide (n ≥ 4), inst := n, code := 0x1202, detail := w }
    some (if s.remapsOf n t repl = 4 then s.askRetire n t repl else s)

/-- Remap an address, or ask for the retirement of its replica where all words are in use (R136). The second
component says whether the remap was made. A remap of an active bank needs the master copy and waits for an open update
window (R123). -/
def State.remapOrRetire (s : State) (n : Nat) (t : Tbl) (bank repl addr val : Nat) : State × Bool :=
  if bank = s.actBank n t ∧ (s.tbl n t).window.isSome then
    (let key := trackKey t bank repl addr
     ({ s with track := modNth ⟨[], [], []⟩ s.track n fun x => { x with owed := x.owed.filter (· ≠ key) ++ [key] } }, false))
  else
  match s.remapInstall n t bank repl addr val with
  | some s => (s, true)
  | none => (if s.remapsUsed n ≥ 8 ∧ s.remapsOf n t repl < 4 then s.askRetire n t repl else s, false)

/-- A corrected read at an address (R134, R135): counted once per tick. DESIGN CHOICE: a remap frees the entry
(log 168). -/
def State.trackCorr (s : State) (n : Nat) (t : Tbl) (bank repl addr val : Nat) : State :=
  let key := trackKey t bank repl addr
  let x := s.track.getD n ⟨[], [], []⟩
  if x.seen.contains key then s
  else
    let s := { s with track := modNth ⟨[], [], []⟩ s.track n fun x => { x with seen := x.seen ++ [key] } }.inc (CTX.CORR_EVENTS n)
    match s.trackFind n key with
    | none =>
      (match s.trackPlace n with
      | some k => (s.wr (CTX.TRACK n k) (trackWord 0 1 key)).setWatch n k none
      | none => s.inc (CTX.TRACK_OVF n))
    | some k =>
      let w := s.rd (CTX.TRACK n k)
      match bits w 30 29 with
      | 0 =>
        let c := bits w 19 15 + 1
        if c ≥ 16 then
          ((s.wr (CTX.TRACK n k) (trackWord 1 16 key)).inc (CTX.REWRITE_CNT n)).needRepair n t bank
        else s.wr (CTX.TRACK n k) (trackWord 0 c key)
      | 2 =>
        let r := s.remapOrRetire n t bank repl addr val
        if r.2 then r.1.trackFree n k else r.1
      | _ => s

/-- An uncorrectable read enters the tracker (R134, R135). -/
def State.trackBad (s : State) (n : Nat) (t : Tbl) (bank repl addr val : Nat) : State :=
  let key := trackKey t bank repl addr
  let pend := fun (s : State) (k count : Nat) =>
    (((s.wr (CTX.TRACK n k) (trackWord 1 count key)).setWatch n k none).inc (CTX.REWRITE_CNT n)).needRepair n t bank
  match s.trackFind n key with
  | none =>
    (match s.trackPlace n with
    | some k => pend s k 0
    | none => s.inc (CTX.TRACK_OVF n))
  | some k =>
    match bits (s.rd (CTX.TRACK n k)) 30 29 with
    | 1 => s
    | 2 =>
      let r := s.remapOrRetire n t bank repl addr val
      if r.2 then r.1.trackFree n k
      else if bank = s.actBank n t ∧ (s.tbl n t).window.isSome then r.1
      else pend r.1 k 0
    | _ => pend s k (bits (s.rd (CTX.TRACK n k)) 19 15)

/-! ### Poison (R131) -/

def TblMem.poisoned (m : TblMem) (bank repl addr : Nat) : Bool := m.poison.contains (bank, repl, addr)

/-- An uncorrectable error found in an active-bank entry (R131): once per entry. -/
def State.poisonAt (s : State) (n : Nat) (t : Tbl) (bank repl addr : Nat) : State :=
  if (s.tbl n t).poisoned bank repl addr then s
  else
    let s := s.modTbl n t fun m => { m with poison := m.poison ++ [(bank, repl, addr)] }
    let s := (s.inc (CTX.UNCORR_EVENTS n)).inc (CTX.POISON_CNT n)
    let s := s.logEv { level := 1, die1 := decide (n ≥ 4), inst := n, code := 0x1201,
                       detail := remapWord t bank repl 0 addr }
    (s.needRepair n t bank).trackBad n t bank repl addr (s.masterEntry (1 + t.ix) n addr)

/-- What a read of the active bank by the data path or the scrubber reports (R131, R134). -/
def State.report (s : State) (n : Nat) (t : Tbl) (bank repl addr : Nat) (o : ReadOut) : State :=
  match o with
  | .clean _ => s
  | .corrected _ => s.trackCorr n t bank repl addr (s.masterEntry (1 + t.ix) n addr)
  | .bad => s.poisonAt n t bank repl addr

/-- Is the address of this replica poisoned? A remapped address reads its spare row. -/
def State.isPoisoned (s : State) (n : Nat) (t : Tbl) (bank repl addr : Nat) : Bool :=
  (s.tbl n t).poisoned bank repl addr && (s.remapRow n t bank repl addr).isNone

/-- A data-path lookup at parallel position `q` (R64, R90): the entry, none where it is substituted (R131). -/
def State.lookup (s : State) (n : Nat) (t : Tbl) (q addr : Nat) : Option Nat × State :=
  let bank := s.actBank n t
  let repl := s.physRepl n t (q / 2)
  let o := s.readRepl n t bank repl addr
  let hit := s.isPoisoned n t bank repl addr
  let s := s.report n t bank repl addr o
  match o with
  | .clean v => (if hit then none else some v, s)
  | .corrected v => (if hit then none else some v, s)
  | .bad => (none, s)

end Sys2Proof.Machine
end

