-- ==== Sys2Proof/Machine/Publish.lean ====
section
/-!
DEFINITION. The publish path of the Joiner and the shadow writes of the table controllers: issue checks, status words,
holds, broadcast writes, swaps, master-copy windows (R35, R36, R123, R124, R126 to R130, R221 to R223, R252).
-/

namespace Sys2Proof.Machine

/-! ### Status words and the publish list -/

/-- States of Table 7-11. -/
def pubWriting : Nat := 1
def pubVerifying : Nat := 2
def pubArmed : Nat := 3
def pubSwapped : Nat := 4
def pubStale : Nat := 5
def pubDisplaced : Nat := 6
def pubSuppressed : Nat := 7
def pubLimit : Nat := 8
def pubBusy : Nat := 9
def pubHeld : Nat := 10

/-- Write the publish status word of a kind on a target (Table 7-11); a final state is an interrupt source (R214). -/
def State.pubStatus (s : State) (d kind tgt st : Nat) : State :=
  s.modJn d fun j => { j with
    dm := dmPut j.dm (pubStatusAddr kind tgt) 4 (st * 2 ^ 28 + s.now d % 2 ^ 24)
    irqPending := if st ≥ pubSwapped then j.irqPending ||| 4 else j.irqPending }

/-- Is a publish still on its way to its swap? -/
def Publish.live (p : Publish) : Bool := decide (p.phase ≠ .swapped)
/-- Is it the publish of a kind on a target? -/
def Publish.named (p : Publish) (kind tgt : Nat) : Bool := decide (p.kind = kind ∧ p.tgt = tgt)

/-- The publish of a kind in progress on a target (R221). -/
def State.findPub (s : State) (kind tgt : Nat) : Option Publish := s.pubs.find? fun p => p.named kind tgt && p.live
/-- The publish of a kind that has swapped on a target and whose master copy is not yet written (R223). -/
def State.findSwapped (s : State) (kind tgt : Nat) : Option Publish := s.pubs.find? fun p => p.named kind tgt && !p.live
def State.modPub (s : State) (kind tgt : Nat) (f : Publish → Publish) : State :=
  { s with pubs := s.pubs.map fun p => if p.named kind tgt && p.live then f p else p }
/-- Release the buffer of a publish that ends without a swap (R223). -/
def State.freePub (s : State) (kind tgt : Nat) : State :=
  { s with pubs := s.pubs.filter fun p => !(p.named kind tgt && p.live) }
/-- Release the buffer of a swapped publish: its master copy is written, or a later one has swapped (R223). -/
def State.freeSwapped (s : State) (kind tgt : Nat) : State :=
  { s with pubs := s.pubs.filter fun p => !(p.named kind tgt && !p.live) }

/-! ### Shadows of the two tables -/

/-- The table a publish or load kind writes. -/
def tblOfKind (kind : Nat) : Option Tbl :=
  match kind with
  | 1 => some .ctx
  | 2 => some .shp
  | _ => none
/-- The publish kind of a table. -/
def Tbl.kind (t : Tbl) : Nat := 1 + t.ix
/-- CTX.SHADOW_STATE of a table: 0 STALE, 1 WRITING, 2 COMPLETE, 3 HELD (R127). -/
def State.shadow (s : State) (n : Nat) (t : Tbl) : Nat := bits (s.rd (CTX.SHADOW_STATE n)) (2 * t.ix + 1) (2 * t.ix)
def State.setShadow (s : State) (n : Nat) (t : Tbl) (v : Nat) : State :=
  s.wr (CTX.SHADOW_STATE n) (match t with
    | .ctx => s.rd (CTX.SHADOW_STATE n) / 4 * 4 + v
    | .shp => 4 * v + s.rd (CTX.SHADOW_STATE n) % 4)

/-- Start a broadcast write into the shadow (R126), `wait` ticks from now. -/
def State.startWrite (s : State) (n : Nat) (t : Tbl) (o : Origin) (set : List (Nat × Nat)) (st : Stamp) (wait : Nat := 0) :
    State :=
  (s.modTbl n t fun m => { m with
    write := some ⟨o, false, s.later (dieOfLine n) (t.ticks + wait), set, st, m.needShadow.or (m.write.bind (·.need))⟩
    armed := none, needShadow := none }).setShadow n t 1

/-- Abandon a write: the shadow is STALE (R127), and a repair it would have made is owed again (R132). -/
def State.stopWrite (s : State) (n : Nat) (t : Tbl) : State :=
  (s.modTbl n t fun m => { m with
    needShadow := m.needShadow.or (m.write.bind (·.need)), write := none, armed := none }).setShadow n t 0

/-- The sparse form of a list of entries. -/
def sparse (xs : List Nat) : List (Nat × Nat) :=
  (List.range xs.length).filterMap fun i => let v := xs.getD i 0; if v = 0 then none else some (i, v)

/-- The master copy of a table as a set (R123). -/
def State.masterSet (s : State) (n : Nat) (t : Tbl) : List (Nat × Nat) :=
  sparse ((List.range t.size).map fun a => s.masterEntry t.kind n a)

/-- End a publish without a swap: its buffer is released (R223), a table shadow it was writing is STALE. -/
def State.dropPub (s : State) (kind tgt st : Nat) : State :=
  match s.findPub kind tgt with
  | none => s
  | some p =>
    let s := ((s.freePub kind tgt).pubStatus p.die kind tgt st).countEv p.die 0x0A 1
    match tblOfKind kind with
    | none => s
    | some t =>
      match (s.tbl tgt t).write with
      | some w => if w.origin = .publish then s.stopWrite tgt t else s
      | none => if p.phase = .complete ∨ p.phase = .armed then s.setShadow tgt t 0 else s

/-- End a publish as displaced (R35, R128). -/
def State.displace (s : State) (kind tgt : Nat) : State :=
  match s.findPub kind tgt with
  | none => s
  | some p => if p.live then (s.inc (JNR.PUBLISH_DISPLACED p.die)).dropPub kind tgt pubDisplaced else s

/-! ### Holds (R35, R128) -/

/-- The target code of the cluster a field belongs to; none for fields of no cluster. -/
def clusterOfAddr (a : Nat) : Option Nat :=
  let b := blkOf a
  if b = 0x10 ∨ b = 0x11 ∨ b = 0x12 ∨ b = 0x13 then some (instOf a)
  else if b = 0x20 ∨ b = 0x21 then some (16 + instOf a)
  else none
/-- The target code of the cluster a table set belongs to. -/
def TableSet.target (x : TableSet) : Option Nat :=
  if x.kind = 0x0D then none else if x.kind = 0x08 then some (16 + x.inst) else some x.inst

/-- Does a commit touch the cluster of a target code (R35)? -/
def PendingCommit.touches (c : PendingCommit) (tgt : Nat) : Bool :=
  c.frozen.any (fun x => decide (clusterOfAddr x.1 = some tgt)) ||
  c.tables.any (fun x => decide (x.target = some tgt))

/-- Is the publish path into a cluster held by a host commit? -/
def State.commitHolds (s : State) (tgt : Nat) : Bool :=
  s.doms.any fun d => match d.commit with
    | some c => c.touches tgt
    | none => false
/-- Does a pending host commit hold the shadow of this kind and instance (R32, R130)? -/
def State.commitUses (s : State) (kind inst : Nat) : Bool :=
  s.doms.any fun d => match d.commit with
    | some c => c.tables.any fun x => decide (x.kind = kind ∧ x.inst = inst)
    | none => false
/-- Is the publish path of a kind on a target held by a TABLE_LOAD (R128)? -/
def State.loadHolds (s : State) (kind tgt : Nat) : Bool :=
  let i := if kind = 8 then tgt - 16 else tgt
  s.loads.any (fun l => decide (l.kind = kind ∧ l.inst = i)) ||
  s.doms.any (fun d => d.held.any fun x => decide (x.kind = kind ∧ x.inst = i)) || s.commitUses kind i

/-! ### Issue (Table 7-10, checks 2 to 5) -/

/-- Last swap of a kind on a target. -/
def State.lastSwap (s : State) (kind tgt : Nat) : Option Nat :=
  (s.pubSwaps.find? fun x => decide (x.1 = kind ∧ x.2.1 = tgt)).map fun x => x.2.2
/-- Have `k` ticks passed since the last swap, at boundary `b`? -/
def State.swapFree (s : State) (kind tgt b k : Nat) : Bool :=
  match s.lastSwap kind tgt with
  | none => true
  | some t => decide (k * s.tickLen (dieOfTarget tgt) ≤ ticksSince b t)
def State.noteSwap (s : State) (kind tgt : Nat) : State :=
  { s with pubSwaps := (kind, tgt, s.now (dieOfTarget tgt)) :: s.pubSwaps.filter fun x => decide (¬ (x.1 = kind ∧ x.2.1 = tgt)) }

/-- The tap limit of a region's level with the floor of FFE_MAIN + 5 (R369). -/
def tapLimitFor (level main : Nat) : Nat :=
  max (tapLimit level) (([17, 21, 25, 29, 33].find? fun c => decide (main + 5 ≤ c)).getD 33)
def State.laneTapLimit (s : State) (n : Nat) : Nat :=
  tapLimitFor (s.rd (THM.RG_LEVEL (regionOfLine n))) (s.rd (LRX.FFE_MAIN n))

/-- The level a pending throttle step leads to; without one, the level in force (R370). -/
def State.nextLevel (s : State) (r : Nat) : Nat :=
  let l := s.rd (THM.RG_LEVEL r)
  match s.sys.therm.step.getD r none with
  | some (tgt, _) => if l < tgt then l + 1 else l - 1
  | none => l
/-- The running tap count of a lane under a limit (R369). -/
def State.tapsUnder (s : State) (n level : Nat) : Nat := min (s.rxL n).nomTaps (tapLimitFor level (s.rd (LRX.FFE_MAIN n)))

/-- Is a factory FFE set with this tap count one that thermal throttling makes: for the region's limit, now or after the
step in course, and not the count that runs (R61, R372)? -/
def State.throttleSet (s : State) (n count : Nat) (user : Bool) : Bool :=
  let r := regionOfLine n
  !user && decide (count ≠ s.rd (LRX.FFE_TAPS n)) &&
    decide (count = s.tapsUnder n (s.rd (THM.RG_LEVEL r)) ∨ count = s.tapsUnder n (s.nextLevel r))

/-- Does the target side take publishes of this kind (check 3)? The sets of thermal throttling pass it; FFE_FREEZE
spares the conservative sets (R82, R285), EQ_FREEZE link training (R182). -/
def State.takesPublish (s : State) (kind tgt count : Nat) (user : Bool) : Bool :=
  if kind = 8 then
    let st := s.rd (HRX.STATE (tgt - 16))
    decide (st ≠ 0 ∧ st ≠ 5 ∧ st ≠ 6 ∧ (st = 2 ∨ s.rd (HRX.EQ_FREEZE (tgt - 16)) = 0))
  else if kind = 2 ∨ kind = 6 then
    let st := s.rd (LTX.STATE tgt)
    decide (st ≠ 0 ∧ st ≠ 1 ∧ st ≠ 4)
  else
    let st := s.rd (LRX.STATE tgt)
    let cons := (s.rxL tgt).consOwed && !user
    (decide (kind = 3) && s.throttleSet tgt count user) ||
    (decide (st ≠ 0 ∧ st ≠ 4 ∧ st ≠ 5) && (decide (kind ≠ 3 ∨ s.rd (LRX.FFE_FREEZE tgt) = 0) || cons))

/-- Is a publish of the receive side suppressed because its lane is in HOLD or FAILED (R78)? One armed for the boundary
`b` at which HOLD was entered is not. -/
def State.pubBarred (s : State) (kind tgt : Nat) (b : Option Nat) : Bool :=
  let st := s.rd (LRX.STATE tgt)
  decide (kind ≠ 8 ∧ kind ≠ 2 ∧ kind ≠ 6) && decide (st = 5 ∨ (st = 4 ∧ b ≠ some (s.rxL tgt).holdAt))

/-- The words a publish names, as 16-bit items of its working buffer (Table 7-2, log 8). An LLR set the bundle does not
hold has no stated content: free values (log 2). -/
def State.pubWords (s : State) (d kind tgt idx : Nat) : List Nat :=
  if kind = 7 then (s.sys.bundle.llrSet tgt idx).getD
    ((List.range 228).map fun i => (Config.freeValue (s.free + i)).toNat % 65536)
  else
    let b := pubBuffer kind tgt
    (List.range ((if kind = 8 then 32 else b.2) / 2)).map fun i => dmHalf (s.jn d).dm (b.1 + 2 * i)

/-- SET_ID in the record header of a publish (R223). -/
def State.pubSetId (s : State) (d kind tgt : Nat) (words : List Nat) : Nat :=
  if kind = 8 then words.getD 0 0
  else if kind = 7 then words.getD 3 0
  else dmHalf (s.jn d).dm (0x40000 + 0x4000 * tgt + 0x2800 + 352)

/-- AFE publish within one code of each running value, 64 ticks after the last AFE swap (check 5, R53). -/
def State.afeWithin (s : State) (tgt : Nat) (words : List Nat) : Bool :=
  let near := fun (a b : Nat) => decide (a ≤ b + 1 ∧ b ≤ a + 1)
  near (words.getD 0 0) (s.rd (LRX.CTLE_PEAK tgt)) && near (words.getD 1 0) (s.rd (LRX.VGA_GAIN tgt)) &&
  s.swapFree 4 tgt (s.now (dieOfTarget tgt)) 64

/-- Boundary from which a publish issued now may be written, and cycle limit of Table 7-7. -/
def State.pubDue (s : State) (die cycle kind : Nat) : Nat :=
  match kind with
  | 1 => s.later die 2
  | 2 => s.now die
  | 7 => s.later die 1
  | 5 => if cycle ≤ 1770 then s.now die else s.later die 1
  | _ => if cycle ≤ 1900 then s.now die else s.later die 1

/-- Issue a publish by Joiner `d` at core cycle `cycle` of its tick: the outcome code of R252 and the state. -/
def State.issuePub (s : State) (d kind tgt idx cycle : Nat) : Nat × State :=
  let die := dieOfTarget tgt
  if s.servJ die ≠ d ∨ (s.sys.bridgeLost ∧ die ≠ d) then (5, s)
  else
    let words := s.pubWords d kind tgt idx
    let count := words.getD 33 0
    match s.findPub kind tgt with
    | some _ => (1, (s.inc (JNR.PUBLISH_BUSY d)).pubStatus d kind tgt pubBusy)
    | none =>
      if !s.takesPublish kind tgt count (s.isUser d) then (2, (s.inc (JNR.PUBLISH_SUPPRESSED d)).pubStatus d kind tgt pubSuppressed)
      else if s.commitHolds tgt || s.loadHolds kind tgt then
        (3, (s.inc (JNR.PUBLISH_DISPLACED d)).pubStatus d kind tgt pubDisplaced)
      else if kind = 4 ∧ !s.afeWithin tgt words then (4, (s.inc (JNR.PUBLISH_LIMIT d)).pubStatus d kind tgt pubLimit)
      else
        let reg := if tgt < 8 then regionOfLine tgt else regionOfHost (tgt - 16)
        let cons := decide (kind = 3 ∨ kind = 7) && decide (tgt < 8) && (s.rxL tgt).consOwed && !s.isUser d
        let p : Publish :=
          { die := d, kind := kind, tgt := tgt, words := words, setId := s.pubSetId d kind tgt words, epoch := s.now d,
            temp := s.regionTemp reg, gen := s.cfgGen (s.domOfDie die), conservative := cons, phase := .writing,
            due := s.pubDue die cycle kind }
        let s := if kind = 7 ∧ s.sys.bundle.llrSet tgt idx = none then { s with free := s.free + 228 } else s
        let s := { s with pubs := s.pubs ++ [p] }.pubStatus d kind tgt pubWriting
        let s := if cons ∧ kind = 3 then s.modRx tgt fun r => { r with consOwed := false } else s
        let s := match tblOfKind kind with
          | some t => s.startWrite tgt t .publish (sparse words)
              ⟨p.setId, p.epoch, p.temp, some (s.rate die)⟩
          | none => s
        (0, s)

/-! ### Swaps -/

/-- The end of the update window of R123. -/
def State.openWindow (s : State) (n : Nat) (t : Tbl) (ticks : Nat) : State :=
  (s.modTbl n t fun m => { m with window := some (s.later (dieOfLine n) ticks) }).wrBit (CTX.FLAGS n) 5 true
/-- MASTER_UPDATING shows any open window of the lane. -/
def State.closeWindow (s : State) (n : Nat) (t : Tbl) : State :=
  let s := s.modTbl n t fun m => { m with window := none }
  s.wrBit (CTX.FLAGS n) 5 ((s.tbl n .ctx).window.isSome || (s.tbl n .shp).window.isSome)

/-- Report the stamps of the active set (R124). -/
def State.showStamp (s : State) (n : Nat) (t : Tbl) (st : Stamp) : State :=
  match t with
  | .ctx => ((s.wr (CTX.SET_ID n) st.setId).wr (CTX.EPOCH n) st.epoch).wr (CTX.TEMP n) st.temp
  | .shp => ((s.wr (LTX.SHP_SET_ID n) st.setId).wr (CTX.SHP_EPOCH n) st.epoch).wr (CTX.SHP_TEMP n) st.temp

/-- Is an address of this bank owed a repair (R132)? -/
def State.bankOwes (s : State) (n : Nat) (t : Tbl) (bank : Nat) : Bool :=
  (s.tbl n t).poison.any (fun x => decide (x.1 = bank)) ||
  (List.range 16).any fun k =>
    let w := s.rd (CTX.TRACK n k)
    decide (bits w 31 29 = 5 ∧ bits w 28 28 = t.ix ∧ bits w 27 27 = bank)

/-- Exchange the active and shadow banks of a table (R129, R132). -/
def State.swapBanks (s : State) (n : Nat) (t : Tbl) : State :=
  let old := s.actBank n t
  let s := s.wrBit (CTX.ACT_BANK n) t.ix (decide (old = 0))
  let owed := s.bankOwes n t old
  let now := s.bankOwes n t (1 - old)
  let s := s.modTbl n t fun m => { m with
    active := m.shadow, armed := none,
    needActive := if now then some (s.nowL n) else none, needShadow := if owed then some (s.nowL n) else none }
  let s := (s.setShadow n t 0).showStamp n t (s.tbl n t).active
  s.wrBit (CTX.FLAGS n) 6 ((s.tbl n .ctx).needActive.isSome || (s.tbl n .shp).needActive.isSome)

/-- A complete new set ends the disabled state of a bad master (R133). -/
def State.masterGood (s : State) (n : Nat) (t : Tbl) : State :=
  let s := (s.modTbl n t fun m => { m with masterBad := [] }).wrBit (CTX.FLAGS n) t.ix false
  match t with
  | .ctx => (s.modRx n fun r => { r with degMaster := false }).rxDegraded n
  | .shp => (s.modTx n fun r => { r with degMaster := false }).txDegraded n

/-- CONSERVATIVE clears when an adaptive context set and an adaptive FFE set have swapped in (R285). -/
def State.consCheck (s : State) (n : Nat) : State :=
  let r := s.rxL n
  if r.adCtx ∧ r.adFfe then s.wrBit (LRX.FLAGS n) 6 false else s

/-- Make an FFE set active: declared count, taps, SET_ID (R60). The running tap count follows a set made for the region's
limit, be it the current one or that of the step in course, whose publish swaps before the level moves (R369, R372). -/
def State.useFfe (s : State) (n count setId : Nat) (taps : List Nat) : State :=
  let s := (s.wrList (LRX.FFE_COEF n 0) taps).modRx n fun r => { r with ffeDecl := count, ffeSetId := setId }
  let r := regionOfLine n
  if count = s.tapsUnder n (s.rd (THM.RG_LEVEL r)) ∨ count = s.tapsUnder n (s.nextLevel r) then s.wr (LRX.FFE_TAPS n) count
  else s
/-- Make a host equaliser set active: words of Table 10-7 kind 0x08 (R182, R185). -/
def State.useHeq (s : State) (k : Nat) (w : List Nat) : State :=
  let old := s.rdList (HRX.FFE_COEF k 0) 12
  let new := ((w.drop 2).take 12).map (· % 256)
  let still := (List.range 12).all fun i =>
    decide ((sgn 8 (new.getD i 0) - sgn 8 (old.getD i 0)).natAbs ≤ 1)
  let s := ((s.wr (HRX.CTLE_PEAK k) (w.getD 1 0)).wrList (HRX.FFE_COEF k 0) new).wr (HRX.DFE_COEF k) (w.getD 14 0)
  s.modHost k fun h => { h with eqSetId := w.getD 0 0, quiet := if still then h.quiet + 1 else 0 }
/-- Make an LLR set active (R72). -/
def State.useLlr (s : State) (n : Nat) (w : List Nat) : State :=
  (s.modRx n fun r => { r with llr := w }).wr (LRX.LLR_SET_ID n) (w.getD 3 0)

/-- 32-bit words of a list of half-words. -/
def wordsOf (h : List Nat) : List Nat := (List.range (h.length / 2)).map fun i => h.getD (2 * i) 0 + 65536 * h.getD (2 * i + 1) 0

/-- The effect of a publish at its boundary (Table 7-7). -/
def State.pubEffect (s : State) (p : Publish) : State :=
  match p.kind with
  | 1 => (((s.swapBanks p.tgt .ctx).openWindow p.tgt .ctx 16).masterGood p.tgt .ctx).modRx p.tgt
      (fun r => { r with adCtx := true }) |>.consCheck p.tgt
  | 2 => ((s.swapBanks p.tgt .shp).openWindow p.tgt .shp 16).masterGood p.tgt .shp
  | 3 => ((s.useFfe p.tgt (p.words.getD 33 0) p.setId ((p.words.take 33).map (· % 1024))).modRx p.tgt fun r =>
      { r with adFfe := r.adFfe || !p.conservative }).consCheck p.tgt
  | 4 => ((s.wr (LRX.CTLE_PEAK p.tgt) (p.words.getD 0 0)).wr (LRX.VGA_GAIN p.tgt) (p.words.getD 1 0)).modRx p.tgt
      fun r => { r with afeAt := some (s.nowL p.tgt) }
  | 5 => s.modRx p.tgt fun r => { r with slices := wordsOf p.words }
  | 6 => s.wrList (LTX.SUBDAC_TRIM p.tgt 0) (wordsOf p.words)
  | 7 => s.useLlr p.tgt p.words
  | _ => s.useHeq (p.tgt - 16) p.words

/-- Copy a set into the master copy with its stamps (R123, R223). -/
def State.writeMaster (s : State) (d kind tgt : Nat) (words : List Nat) (setId epoch temp gen : Nat) : State :=
  let a := masterArea kind tgt
  s.modJn d fun j => { j with
    dm := dmPutStamp (if a.2 = 0 then j.dm else dmPutHalves j.dm a.1 words) (stampArea kind tgt) setId epoch temp gen }

/-- The words in service of a small set, as its master copy holds them: FFE, AFE, slices, sub-DAC trims, host equaliser
(R39, log 8). -/
def State.runWords (s : State) (kind tgt : Nat) : List Nat :=
  let r := s.rxL tgt
  match kind with
  | 3 => s.rdList (LRX.FFE_COEF tgt 0) 33 ++ [r.ffeDecl]
  | 4 => [s.rd (LRX.CTLE_PEAK tgt), s.rd (LRX.VGA_GAIN tgt)]
  | 5 => r.slices.flatMap fun w => [w % 65536, w / 65536]
  | 6 => (s.rdList (LTX.SUBDAC_TRIM tgt 0) 4).flatMap fun w => [w % 65536, w / 65536]
  | _ =>
    let k := tgt - 16
    [(s.hostL k).eqSetId, s.rd (HRX.CTLE_PEAK k)] ++ s.rdList (HRX.FFE_COEF k 0) 12 ++ [s.rd (HRX.DFE_COEF k)]
/-- The small set in service becomes the master copy of Joiner `d`. -/
def State.rebuildSmall (s : State) (d tgt kind : Nat) : State :=
  let id := if kind = 8 then (s.hostL (tgt - 16)).eqSetId else (s.rxL tgt).ffeSetId
  s.writeMaster d kind tgt (s.runWords kind tgt) id (s.now d) 0x8000 (s.cfgGen (s.domOfDie (dieOfTarget tgt)))
/-- The master copy of a table as the recipe's initial set builds it (R205): the bundle's section (0x03, 0x04), else the zero
set (R124, R289). -/
def State.initTable (s : State) (n : Nat) (t : Tbl) : State :=
  let d := s.servJ (dieOfLine n)
  let gen := s.cfgGen (s.domOfDie (dieOfLine n))
  let z := s.writeMaster d t.kind n (List.replicate t.size 0) 0 0 0x8000 gen
  match t, s.sys.bundle.sect (2 + t.kind) n with
  | .ctx, some w => s.writeMaster d 1 n (w.drop 3) (w.getD 0 0) (s.nowL n) (w.getD 2 0x8000) gen
  | .shp, some w => s.writeMaster d 2 n (w.drop 2) (w.getD 0 0) (s.nowL n) 0x8000 gen
  | _, none => z
/-- The small-set record of a line lane as its sets stand (R60, R205). -/
def State.initRecord (s : State) (n : Nat) : State :=
  [3, 4, 5, 6].foldl (fun s k => s.rebuildSmall (s.servJ (dieOfLine n)) n k) s
/-- The equaliser master of a host lane as its set stands. -/
def State.initHeq (s : State) (k : Nat) : State := s.rebuildSmall (s.servJ (dieOfHost k)) (16 + k) 8
/-- Every master copy, built at a cold start (R205). -/
def State.initMasters (s : State) : State :=
  let s := (List.range 8).foldl (fun s n => ((s.initTable n .ctx).initTable n .shp).initRecord n) s
  (List.range 16).foldl (fun s k => s.initHeq k) s

/-- The entries of the active bank as an in-service replica reads them (R39). -/
def State.activeWords (s : State) (n : Nat) (t : Tbl) : List Nat :=
  (List.range t.size).map fun a => spGet 0 ((s.tbl n t).bank (s.actBank n t)) a

end Sys2Proof.Machine
end

