-- ==== Sys2Proof/Machine/Boundary.lean ====
section
/-!
DEFINITION. What is due at the present boundary, and the order in which it applies (R29, Table 1-5).
-/

namespace Sys2Proof.Machine

/-- The stages of a boundary, in their order (R29). -/
inductive Stage where
  | commit | unit | live | publish | refresh | remap | throttle
  deriving DecidableEq, Repr

/-- The place of a stage in the order. -/
def Stage.ix : Stage → Nat
  | .commit => 1
  | .unit => 2
  | .live => 3
  | .publish => 4
  | .refresh => 5
  | .remap => 6
  | .throttle => 7

/-- Is the armed commit of a domain due (R31)? -/
def State.commitDue (s : State) (d : Nat) : Bool :=
  match (s.dom d).commit with
  | some c => c.armed && s.dueAt d c.target
  | none => false

/-- Is a retirement of the armed unit commit due on its die (R137, R12)? -/
def State.itemDue (s : State) (u : UnitCommit) (x : Retirement) : Bool := s.dueAt (dieOfLine x.lane) u.target
/-- Is the unit commit due for any die it concerns, and does the controller serve (R37)? -/
def State.unitDue (s : State) : Bool :=
  match s.unit with
  | some u => u.armed && s.mcServes && (if u.items = [] then reached s.tickno u.target else u.items.any (s.itemDue u))
  | none => false

/-- Is a live write due (R19)? -/
def State.liveDue (s : State) (w : LiveWrite) : Bool := s.dueAt (dieOfAddr w.addr) w.due

/-- Is an armed publish due (R222)? -/
def State.publishDue (s : State) (p : Publish) : Bool := decide (p.phase = .armed) && s.dueAt (dieOfTarget p.tgt) p.due

/-- Does a host commit that does not use this table fall at this boundary: still pending for it, or effective at it
(R130)? -/
def State.otherCommitNow (s : State) (n : Nat) (t : Tbl) : Bool :=
  let b := s.nowL n
  s.doms.any fun d =>
    (match d.commit with
      | some c => decide (c.target = b) && !c.tables.any (fun x => decide (x.kind = t.kind ∧ x.inst = n))
      | none => false) ||
    (match d.last with
      | some x => decide (x.1 = b) && !x.2.contains (t.kind, n)
      | none => false)

/-- Is an armed refresh due (R130, R132)? -/
def State.refreshDue (s : State) (n : Nat) (t : Tbl) : Bool :=
  decide ((s.tbl n t).armed = some .refresh) && s.dueAt (dieOfLine n) (s.tbl n t).armedDue &&
  s.swapFree t.kind n (s.nowL n) 4 && !s.otherCommitNow n t

/-- Is an armed zero set due: 6 ticks after the relink began for context, 3 for shaping (R285)? -/
def State.zeroDue (s : State) (n : Nat) (t : Tbl) : Bool :=
  decide ((s.tbl n t).armed = some .zero) && s.dueAt (dieOfLine n) (s.tbl n t).armedDue &&
  (match (s.rxL n).relinkT with
    | some r => s.passed (dieOfLine n) r (if t = .ctx then 6 else 3)
    | none => true)

/-- Is a remap word of a lane's table due to become active (R136)? -/
def State.remapDue (s : State) (n : Nat) (t : Tbl) : Bool := (s.tbl n t).newRemaps.any fun x => s.dueAt (dieOfLine n) x.2

/-- Is something of this stage due at the present boundary? -/
def State.stageDue (s : State) : Stage → Bool
  | .commit => s.commitDue 0 || s.commitDue 1
  | .unit => s.unitDue
  | .live => s.live.any s.liveDue
  | .publish => s.pubs.any s.publishDue
  | .refresh => (List.range 8).any fun n => [Tbl.ctx, Tbl.shp].any fun t => s.refreshDue n t || s.zeroDue n t
  | .remap => (List.range 8).any fun n => [Tbl.ctx, Tbl.shp].any fun t => s.remapDue n t
  | .throttle => false

/-- Is something of an earlier stage still due? A later stage then waits (R29). -/
def State.dueBefore (s : State) (st : Stage) : Bool :=
  [Stage.commit, .unit, .live, .publish, .refresh, .remap].any fun x => decide (x.ix < st.ix) && s.stageDue x

end Sys2Proof.Machine
end

