-- ==== Sys2Proof/Machine/HkOps.lean ====
section
/-!
DEFINITION. Operations of the housekeeping converter and the bias outputs: triggers, rings, filters, comparators, holds,
span changes, control loops (R336 to R361).
-/

namespace Sys2Proof.Machine

def State.modHk (s : State) (f : Hk → Hk) : State := s.modSys fun y => { y with hk := f y.hk }
def State.bias (s : State) (c : Nat) : Bias := s.sys.bias.getD c .reset
def State.modBias (s : State) (c : Nat) (f : Bias → Bias) : State := s.modSys fun y => { y with bias := modNth .reset y.bias c f }

/-- Saturation to an unsigned 16-bit value. -/
def sat16u (x : Int) : Nat := if x < 0 then 0 else if x > 65535 then 65535 else x.toNat

/-- The housekeeping ADC domain is powered, and no sleep entry has stopped the sequencer (R360, R389). -/
def State.adcOn (s : State) : Bool := decide (s.rd (PWR.DOM_STATE 87) = 1 ∧ s.sys.power.entry = 0)
/-- The bias DAC domain is powered (R354). -/
def State.dacOn (s : State) : Bool := decide (s.rd (PWR.DOM_STATE 88) = 1)

/-! ### Triggers and passes (R340 to R342) -/

/-- A trigger of the selected source: it starts a pass, becomes pending behind a running one, or is dropped. -/
def State.hkTrigger (s : State) : State :=
  let h := s.sys.hk
  if h.latched then s.inc HK.TRIG_OVERLAP
  else if h.pass.isNone ∧ !h.start then s.modHk fun h => { h with start := true }
  else s.modHk fun h => { h with latched := true }

def State.modTherm (s : State) (f : Therm → Therm) : State := s.modSys fun y => { y with therm := f y.therm }
/-- Corrected reference trims take effect where `at_` holds of their number and boundary (R377). -/
def State.takeTrims (s : State) (at_ : Nat → Option Nat → Bool) : State :=
  s.modTherm fun h => { h with trims := (List.range 19).map fun i =>
    let r := h.trims.getD i ⟨0, none⟩
    match r.next with
    | some (v, b) => if at_ i b then ⟨v, none⟩ else r
    | none => r }

/-- Start a pass on the step words and coefficients in force (R342, R350), and on the corrected trims of the converter
(R377). -/
def State.passBegin (s : State) : State :=
  let len := s.rd HK.SEQ_LEN
  ((s.takeTrims fun _ b => b.isNone).modHk fun h => { h with
    start := false, pass := some 0, quota := 0, steps := s.rdList (HK.STEP 0) len
    ofs := s.rdList (HK.SYSCAL_OFS 0) 32, gain := s.rdList (HK.SYSCAL_GAIN 0) 32 }).wr HK.STATE 2

/-- The state between passes: OFF, IDLE, or REFCAL while one runs. -/
def State.hkIdle (s : State) : State :=
  s.wr HK.STATE (if s.sys.refcal.isSome then 3 else if s.rd HK.SEQ_TRIG = 0 then 0 else 1)

/-- A pass has ended: a pending trigger comes next, after at most 16 calibration conversions (R352). The free-running
sequencer always has one pending (R340). -/
def State.passEnd (s : State) : State :=
  let free := decide (s.rd HK.SEQ_TRIG = 1)
  (s.modHk fun h => { h with
    pass := none, start := h.latched || free, latched := false
    quota := if (h.latched || free) && h.cal.isSome then 16 else 0 }).inc HK.PASS_CNT |>.hkIdle

/-! ### Rings (R343 to R345) -/

def State.ring (s : State) (k : Nat) : RingSt := s.sys.hk.rings.getD k .reset
def State.modRing (s : State) (k : Nat) (f : RingSt → RingSt) : State := s.modHk fun h => { h with rings := modNth .reset h.rings k f }

/-- Set the rewind mark of a ring at a position. -/
def State.ringMark (s : State) (k pos : Nat) : State :=
  ((s.modRing k fun r => { r with mark := pos }).wr (HK.RING_MARK k) pos).wr (HK.RING_FLAGS k) 1

/-- The housekeeping window in the data memory of a Joiner (Table 7-1). -/
def hkWindow : Nat := 0x68000

/-- Write an entry into a ring, and into the housekeeping window of the serving Joiner. -/
def State.ringPut (s : State) (k entry : Nat) : State :=
  let len := s.rd (HK.RING_LEN k)
  if len = 0 then s
  else
    let r := s.ring k
    let at_ := s.rd (HK.RING_BASE k) + r.tot % len
    let s := s.modHk fun h => { h with mem := spSet 0xFFFFFFFF h.mem at_ entry }
    let s := s.modJn (s.servJ 0) fun j => { j with dm := dmPut j.dm (hkWindow + 4 * at_) 4 entry }
    let s := (s.modRing k fun r => { r with tot := r.tot + 1 }).wr (HK.RING_WPOS k) (r.tot + 1)
    if s.bit (HK.RING_FLAGS k) 0 ∧ r.tot + 1 > r.mark + len then (s.wr (HK.RING_FLAGS k) 2).inc HK.OVERTAKEN_CNT else s

/-- A ring configured anew starts at position 0 (R344). -/
def State.ringRestart (s : State) (k : Nat) : State :=
  let s := (s.modRing k fun _ => .reset).wr (HK.RING_WPOS k) 0
  s.wrBit (HK.RING_FLAGS k) 0 false

/-- A ring entry (Table 12-3). -/
def ringEntry (unsettled sat filt : Bool) (src pass v : Nat) : Nat :=
  unsettled.toNat * 2 ^ 31 + sat.toNat * 2 ^ 30 + filt.toNat * 2 ^ 28 + src % 64 * 2 ^ 22 + pass % 64 * 2 ^ 16 + v % 65536

/-- The entry at a position of a ring: none where it has been overwritten (R345). -/
def State.ringAt (s : State) (k : Nat) (pos : Int) : Option Nat :=
  let r := s.ring k
  let len := s.rd (HK.RING_LEN k)
  if pos < 0 ∨ (r.tot : Int) ≤ pos then some 0xFFFFFFFF
  else if r.tot > pos.toNat + len then none
  else some (spGet 0xFFFFFFFF s.sys.hk.mem (s.rd (HK.RING_BASE k) + pos.toNat % len))

/-- The entry a RING_DATA field reads (R345). -/
def State.ringField (s : State) (off : Nat) : Option Nat :=
  let k := (off - 0x800) / 256
  s.ringAt k ((s.ring k).mark - 128 + ((off - 0x800) % 256 : Nat))

/-! ### Holds, releases and span changes (R355 to R358) -/

/-- Hold a channel at 0 V. -/
def State.biasHold (s : State) (c : Nat) : State :=
  let s := ((s.wrBit BDAC.HOLD c true).wr (BDAC.OUT_CODE c) 0).wr (BDAC.OUT_SPAN c) 0
  s.modBias c fun b => { b with phase := none, acc := none }
/-- Hold the channels of a mask. -/
def State.biasHolds (s : State) (mask : Nat) : State :=
  (List.range 24).foldl (fun s c => if mask.testBit c then s.biasHold c else s) s

/-- Release a channel: the span is switched at 0 V, and after 10 µs the output slews to CODE (R357). -/
def State.biasRelease (s : State) (c : Nat) : State :=
  if s.bit BDAC.HOLD c ∧ !s.sys.txDis ∧ !s.sys.thermShut then
    ((s.wrBit BDAC.HOLD c false).wr (BDAC.OUT_SPAN c) (s.rd (BDAC.SPAN c))).modBias c fun b =>
      { b with phase := some .wait, acc := none }
  else s

/-- The span of a channel that is not held is changed by a commit: phase 1 runs at the old slew settings (R356). -/
def State.spanChange (s : State) (c oldStep oldDiv : Nat) : State :=
  if s.bit BDAC.HOLD c then s
  else s.modBias c fun b => { b with phase := some .down, step := oldStep, div := oldDiv, acc := none }

/-- Move a code towards a target by at most `step`, or at once with step 0 (R355). -/
def slewCode (now target step : Nat) : Nat :=
  if step = 0 then target
  else if now < target then min target (now + step)
  else max target (now - min now step)

/-- What a bias pin drives (Table 12-7): none is high impedance, else the code and the span applied. -/
def State.biasPin (s : State) (c : Nat) : Option (Nat × Nat) :=
  if s.sys.pins.pgHv ∧ s.bit RST.FLAGS 0 ∧ s.dacOn then some (s.rd (BDAC.OUT_CODE c), s.rd (BDAC.OUT_SPAN c)) else none

/-- Vout of a bias pin, Vspan · OUT_CODE / 4,096, in 1/256 mV; none is high impedance (R353). -/
def State.biasVout (s : State) (c : Nat) : Option Nat := (s.biasPin c).map fun p => p.1 * (if p.2 = 1 then 150 else 75)

/-- BDAC-1 for a code and a span (Table 12-12). -/
def codeOk (code span vmax : Nat) : Bool := decide (code * (if span = 1 then 2400 else 1200) ≤ vmax * 4096)

/-! ### Comparators (R348, R349) -/

/-- Does a value meet the condition of a MODE? -/
def winCond (mode lo hi v : Nat) : Bool :=
  match mode with
  | 0 => decide (v > hi)
  | 1 => decide (v < lo)
  | 2 => decide (v < lo ∨ v > hi)
  | _ => decide (lo ≤ v ∧ v ≤ hi)
/-- Does a value fail the condition by at least `h` (1/16 code)? -/
def winFail (mode lo hi h v : Nat) : Bool :=
  match mode with
  | 0 => decide (v + h ≤ hi)
  | 1 => decide (lo + h ≤ v)
  | 2 => decide (lo + h ≤ v ∧ v + h ≤ hi)
  | _ => decide ((v < lo ∧ v + h ≤ lo) ∨ (v > hi ∧ hi + h ≤ v))

def State.modWin (s : State) (w : Nat) (f : WinSt → WinSt) : State := s.modHk fun h => { h with wins := modNth .reset h.wins w f }

/-- The event of a comparator; `ring` is the ring the value went to. -/
def State.winEvent (s : State) (w v : Nat) (ring : Option Nat) : State :=
  let c := s.rd (HK.WIN_CFG w)
  let s := (s.wrBit HK.WIN_STAT w true).inc (HK.WIN_CNT w)
  let s := if bits c 17 17 = 1 then
      s.logEv { level := 3, irq := true, code := 0x4001, detail := w * 65536 + v }
    else s
  let m := bits c 14 12
  let s := if bits c 16 16 = 1 then
      s.ringMark m (if ring = some m then (s.ring m).tot - 1 else (s.ring m).tot)
    else s
  let s := if s.bit HK.WIN_TRIG_MASK w ∧ s.rd HK.SEQ_TRIG = 5 then s.hkTrigger else s
  s.biasHolds (s.rd (HK.WIN_SAFE w))

/-- One comparator evaluates a new settled value. -/
def State.winEval (s : State) (w v : Nat) (ring : Option Nat) : State :=
  let c := s.rd (HK.WIN_CFG w)
  let lo := s.rd (HK.WIN_LO w)
  let hi := s.rd (HK.WIN_HI w)
  let st := s.sys.hk.wins.getD w .reset
  let met := winCond (bits c 23 22) lo hi v
  if !st.armed then
    if winFail (bits c 23 22) lo hi (16 * bits c 11 4) v ∧ !met then s.modWin w fun _ => ⟨0, true⟩ else s
  else if !met then s.modWin w fun _ => ⟨0, true⟩
  else if st.run + 1 ≥ bits c 21 18 then (s.modWin w fun _ => ⟨0, false⟩).winEvent w v ring
  else s.modWin w fun x => { x with run := x.run + 1 }

/-- Every enabled comparator of a source evaluates its new value. -/
def State.compare (s : State) (filt : Bool) (index v : Nat) (ring : Option Nat) : State :=
  (List.range 16).foldl (fun s w =>
    let c := s.rd (HK.WIN_CFG w)
    if bits c 31 31 = 1 ∧ bits c 30 30 = filt.toNat ∧ bits c 29 24 = index then s.winEval w v ring else s) s

/-! ### Filters (R346, R347) -/

/-- Sections and settling count of a preset (Table 12-4). -/
def presetSections (p : Nat) : Nat := if p ≤ 2 then 1 else 2
def presetSettle (p : Nat) : Nat := [0, 40, 192, 72, 352, 1760].getD p 0

/-- Coefficient `i` (b0, b1, b2, a1, a2) of section `sec` of filter `f`. -/
def State.filtCoef (s : State) (f sec i : Nat) : Int :=
  let p := s.rd (HK.FILT_PRESET f)
  if p = 0 then sgn 20 (s.rd (HK.FILT_COEF (10 * f + 5 * sec + i))) else (Config.filterPreset p sec i).toInt

/-- One section: the unsaturated output and the next state; the accumulator has 48 bits. -/
def Section2.next (q : Section2) (b0 b1 b2 a1 a2 x : Int) : Int × Section2 :=
  let acc := sgn 48 (enc 48 (b0 * x + b1 * q.x1 + b2 * q.x2 - a1 * q.y1 - a2 * q.y2))
  let y := asr (acc + 131072) 18
  (y, ⟨x, q.x1, y, q.y1⟩)

def State.modFilt (s : State) (f : Nat) (g : FiltSt → FiltSt) : State := s.modHk fun h => { h with filts := modNth .reset h.filts f g }
/-- A filter channel restarts (R347). -/
def State.filtRestart (s : State) (f : Nat) : State := (s.modFilt f fun _ => .reset).wr (HK.FILT_STAT f) 1

/-- The step that feeds a filter channel, with its word (R339). -/
def State.filtFeed (s : State) (f : Nat) : Option (Nat × Nat) :=
  (((List.range (min 64 (s.rd HK.SEQ_LEN))).map fun k => (k, s.rd (HK.STEP k))).find? fun x =>
    decide (bits x.2 19 19 = 1 ∧ bits x.2 18 16 = f))
/-- The configuration and coefficients of a filter channel. -/
def State.filtConf (s : State) (f : Nat) : List Nat :=
  [s.rd (HK.FILT_PRESET f), s.rd (HK.FILT_CFG f), s.rd (HK.FILT_RING f), s.rd (HK.FILT_SETTLE f)] ++
    s.rdList (HK.FILT_COEF (10 * f)) 10
/-- After a commit: the channels and rings whose settings it has changed restart, and so does every filter when the
sequencer leaves OFF; a sequencer switched OFF runs no pending pass (R340, R344, R347). -/
def State.hkRestarts (s old : State) : State :=
  let s' := (List.range 8).foldl (fun (x : State) k =>
    if s.rd (HK.RING_BASE k) = old.rd (HK.RING_BASE k) ∧ s.rd (HK.RING_LEN k) = old.rd (HK.RING_LEN k) then x
    else x.ringRestart k) s
  let left := decide (old.rd HK.SEQ_TRIG = 0 ∧ s.rd HK.SEQ_TRIG ≠ 0)
  let s' := (List.range 8).foldl (fun (x : State) f =>
    if left ∨ s.filtFeed f ≠ old.filtFeed f ∨ s.filtConf f ≠ old.filtConf f then x.filtRestart f else x) s'
  let s' := if s.rd HK.SEQ_TRIG = 0 then s'.modHk fun h => { h with start := false, latched := false } else s'
  let s' := if s.rd HK.SEQ_TRIG = old.rd HK.SEQ_TRIG ∧ s.rd HK.SEQ_TICKS = old.rd HK.SEQ_TICKS then s'
    else s'.modHk fun h => { h with tickTrig := none }
  if s.sys.hk.pass.isSome then s' else s'.hkIdle

/-- Feed one value to a filter channel. -/
def State.filtIn (s : State) (f v : Nat) : State :=
  let cfg := s.rd (HK.FILT_CFG f)
  if bits cfg 7 7 = 0 then s
  else
    let p := s.rd (HK.FILT_PRESET f)
    let st := s.sys.hk.filts.getD f .reset
    let q0 : Section2 := ⟨v, v, v, v⟩
    let st := if st.fresh then { st with s1 := q0, s2 := q0, fresh := false } else st
    let c := s.filtCoef f
    let two := if p = 0 then decide (bits cfg 6 6 = 1) else decide (presetSections p = 2)
    let r1 := st.s1.next (c 0 0) (c 0 1) (c 0 2) (c 0 3) (c 0 4) v
    let r2 := if two then st.s2.next (c 1 0) (c 1 1) (c 1 2) (c 1 3) (c 1 4) (sat16u r1.1) else (r1.1, st.s2)
    let out := sat16u r2.1
    let isSat := decide (r1.1 ≠ sat16u r1.1 ∨ r2.1 ≠ out)
    let n := st.count + 1
    let s := s.modFilt f fun _ => ⟨r1.2, r2.2, n, false⟩
    if n % 2 ^ bits cfg 5 3 ≠ 0 then s
    else
      let unsettled := decide (n < (if p = 0 then s.rd (HK.FILT_SETTLE f) else presetSettle p))
      let s := (s.wr (HK.FILT_OUT f) out).wr (HK.FILT_STAT f) (unsettled.toNat + 2 * isSat.toNat)
      let ring := if bits (s.rd (HK.FILT_RING f)) 3 3 = 1 then some (bits (s.rd (HK.FILT_RING f)) 2 0) else none
      let s := match ring with
        | some k => s.ringPut k (ringEntry unsettled isSat true f (s.rd HK.PASS_CNT) out)
        | none => s
      if unsettled then s
      else (s.modHk fun h => { h with fresh := (64 + f) :: h.fresh.filter fun i => decide (i ≠ 64 + f) }).compare true f out ring

/-! ### Results of a pass (R339, R350) -/

/-- System calibration of a reading. -/
def sysCal (x ofs gain : Nat) : Nat := sat16u (2048 + asr (((x : Int) - ofs) * gain + 8192) 14)

/-- The result of one step of the running pass. -/
def State.stepResult (s : State) (k x : Nat) : State :=
  let h := s.sys.hk
  let w := h.steps.getD k 0
  let i := bits w 4 0
  let sat_ := decide (x / 16 = 0 ∨ x / 16 = 4095)
  let v := if bits w 20 20 = 1 then sysCal x (h.ofs.getD i 2048) (h.gain.getD i 0x4000) else x
  let s := s.wr (HK.RESULT k) v
  let ring := if bits w 15 15 = 1 then some (bits w 14 12) else none
  let s := match ring with
    | some r => s.ringPut r (ringEntry false sat_ false k (s.rd HK.PASS_CNT) v)
    | none => s
  let s := s.modHk fun h => { h with fresh := k :: h.fresh.filter fun j => decide (j ≠ k) }
  let s := s.compare false k v ring
  if bits w 19 19 = 1 then s.filtIn (bits w 18 16) v else s

/-! ### Control loops (R359) -/

/-- One run of the loop of a channel on a new value of its source. -/
def State.loopRun (s : State) (c v : Nat) : State :=
  let cfg := s.rd (BDAC.LOOP_CFG c)
  let k := bits cfg 23 20
  let t : Int := s.rd (BDAC.LOOP_TARGET c)
  let e : Int := if bits cfg 19 19 = 1 then v - t else t - v
  let lo : Int := s.rd (BDAC.LOOP_MIN c) * 2 ^ k
  let hi : Int := s.rd (BDAC.LOOP_MAX c) * 2 ^ k
  let acc := (s.bias c).acc.getD (s.rd (BDAC.OUT_CODE c) * 2 ^ k) + e
  let acc := if acc < lo then lo else if acc > hi then hi else acc
  let s := s.modBias c fun b => { b with acc := some acc }
  { s with live := s.live ++ [⟨BDAC.CODE c, (asr acc k).toNat, addTicks s.tickno 1⟩] }

/-- Is the loop of a channel frozen? -/
def State.loopFrozen (s : State) (c : Nat) : Bool :=
  s.bit BDAC.HOLD c || (s.bias c).phase.isSome || decide (s.rd (JNR.STATE (s.servJ 0)) ≠ 2)

/-- A factory HK slot runs the loops whose source has delivered a new settled value. -/
def State.loopsRun (s : State) : State :=
  let s1 := (List.range 24).foldl (fun s c =>
    let cfg := s.rd (BDAC.LOOP_CFG c)
    let idx := bits cfg 29 24
    let src := if bits cfg 30 30 = 1 then 64 + idx else idx
    if bits cfg 31 31 = 1 ∧ s.sys.hk.fresh.contains src ∧ !s.loopFrozen c then
      s.loopRun c (s.rd (if bits cfg 30 30 = 1 then HK.FILT_OUT idx else HK.RESULT idx))
    else s) s
  s1.modHk fun h => { h with fresh := [] }

/-- Flags of BDAC (Table 12-11). -/
def State.bdacFlags (s : State) : Nat :=
  let frozen := (List.range 24).any fun c => decide (bits (s.rd (BDAC.LOOP_CFG c)) 31 31 = 1) && s.loopFrozen c
  s.sys.txDis.toNat + 2 * s.sys.thermShut.toNat + 4 * (decide (s.rd BDAC.SC_STAT ≠ 0)).toNat +
    8 * (decide (s.rd BDAC.HOLD ≠ 0)).toNat + 16 * frozen.toNat
/-- Flags of HK (Table 12-10). -/
def State.hkFlags (s : State) : Nat :=
  let h := s.sys.hk
  (decide (s.rd DEV.REF_STATE ≠ 0)).toNat + 2 * ((List.range 8).any fun k => s.bit (HK.RING_FLAGS k) 1).toNat +
    4 * (h.zero.isSome || h.full.isSome).toNat + 8 * ((List.range 8).any fun f => s.bit (HK.FILT_STAT f) 1).toNat

end Sys2Proof.Machine
end

