-- ==== Sys2Proof/Machine/Capture.lean ====
section
/-!
DEFINITION. Capture of line data: capture words and their formats (R84, Table 2-13), the FIFO packets the Joiner reads
(R215 to R219), the capture ring (R469 to R473) and the histogram engine (R475).
-/

namespace Sys2Proof.Machine

/-- Pack signed items of `w` bits into a word, first item lowest; padding is by sign (R243). -/
def packItems (w : Nat) (xs : List Int) : BitVec 128 :=
  BitVec.ofNat 128 (((List.range xs.length).map fun i => enc w (xs.getD i 0) * 2 ^ (w * i)).sum)

/-- Cut a list into capture words of 128 / w items. -/
def packAll (w : Nat) (xs : List Int) : List (BitVec 128) :=
  (List.range (xs.length * w / 128)).map fun i => packItems w ((xs.drop (128 / w * i)).take (128 / w))

/-- What one data-path word offers to the capture points of Table 2-13. -/
structure RxTaps where
  raw : List Int
  shadow : List Int
  corr : List Int
  ffe : List Int
  ctx : List (Int × Nat)
  dec : List (Nat × Nat × Nat)
  deriving DecidableEq, Repr

/-- Items of a capture point, with their width (log 11). -/
def RxTaps.items (d : RxTaps) (point : Nat) : Nat × List Int :=
  match point with
  | 0 => (8, d.raw)
  | 1 => (8, d.shadow)
  | 2 => (16, d.corr)
  | 3 => (16, d.ffe)
  | 4 => (16, d.ctx.map fun x => 16 * x.1 + (x.2 : Int))
  | _ => (16, d.dec.map fun x => sgn 10 (x.1 + 4 * x.2.1 + 64 * x.2.2))

/-- Capture words of items of a width, given the items left over from earlier words (SHADOW fills one word from four). -/
def cutWords (x : Nat × List Int) (part : List Int) : List (BitVec 128) × List Int :=
  let all := part ++ x.2
  let per := 128 / x.1
  (packAll x.1 all, all.drop (all.length / per * per))
/-- Capture words of a point. -/
def RxTaps.words (d : RxTaps) (point : Nat) (part : List Int) : List (BitVec 128) × List Int := cutWords (d.items point) part

/-- What one data-path word of a host lane offers to its capture points (R215). -/
structure HostTaps where
  adc : List Int
  ffe : List Int
  /-- DFE input and level index. -/
  dec : List (Int × Nat)
  deriving DecidableEq, Repr

/-- Items of a host capture point. DESIGN CHOICE: padded to 16 bits, eight to a capture word; point 2 holds the DFE input
above the two bits of the decision (log 179). -/
def HostTaps.items (d : HostTaps) (point : Nat) : Nat × List Int :=
  match point with
  | 0 => (16, d.adc)
  | 1 => (16, d.ffe)
  | _ => (16, d.dec.map fun x => 4 * x.1 + (x.2 : Int))

/-! ### FIFO packets -/

/-- Parity of the four 32-bit quarters (R217). -/
def parBits (w : BitVec 128) : Nat :=
  (List.range 4).foldl (fun p q =>
    p + (if ((List.range 32).filter fun i => w.getLsbD (32 * q + i)).length % 2 = 1 then 2 ^ q else 0)) 0
/-- The sideband of Table 7-8. -/
def sideband (fin poison : Bool) (pkt : Nat) (w : BitVec 128) : BitVec 16 :=
  BitVec.ofNat 16 (fin.toNat * 32768 + poison.toNat * 16384 + pkt % 256 * 64 + parBits w)

/-- The bank a packet fills. -/
def CapFifo.bank (f : CapFifo) (b : Nat) : CapBank := if b = 0 then f.a else f.b
def CapFifo.modBank (f : CapFifo) (b : Nat) (g : CapBank → CapBank) : CapFifo :=
  if b = 0 then { f with a := g f.a } else { f with b := g f.b }

/-- Take one data-path word, which offers `items` at each point, into the packet being filled, at word offset `off` of tick
`tick` (R216, R218). -/
def CapFifo.take (f : CapFifo) (tick off : Nat) (items : Nat → Nat × List Int) : CapFifo :=
  match f.filling with
  | none => f
  | some (b, r) =>
    let begun := match r.start with
      | none => true
      | some w => reached tick (addTicks r.after 1) || (decide (tick = r.after) && decide (w ≤ off))
    if !begun then f
    else if f.seen % 2 ^ r.dec ≠ 0 then { f with seen := f.seen + 1 }
    else
      let x := cutWords (items r.point) f.part
      let room := r.count - (f.bank b).words.length
      let ws := (x.1.take room).map fun w => (w, sideband false false (f.bank b).pkt w)
      let f := { f with seen := f.seen + 1, part := x.2 }
      f.modBank b fun k =>
        let k := if k.words = [] ∧ ws ≠ [] then { k with tick := tick % 2 ^ 20, off := off % 4096 } else k
        { k with words := k.words ++ ws }

/-- Mark the last word of a packet (R217, R219). -/
def markEnd (poison : Bool) (pkt : Nat) (ws : List (BitVec 128 × BitVec 16)) : List (BitVec 128 × BitVec 16) :=
  match ws.getLast? with
  | none => ws
  | some (w, _) => ws.dropLast ++ [(w, sideband true poison pkt w)]

/-- Stored words after memory errors: the bits named are inverted, the sidebands stay (R217). -/
def struck (flips : List (BitVec 128)) : List (BitVec 128 × BitVec 16) → List (BitVec 128 × BitVec 16)
  | [] => []
  | x :: xs => (x.1 ^^^ flips.headD 0, x.2) :: struck flips.tail xs

/-- End the packet being filled: its bank becomes FULL (R218). -/
def CapFifo.finish (f : CapFifo) (trunc : Bool) : CapFifo :=
  match f.filling with
  | none => f
  | some (b, _) =>
    let f := f.modBank b fun k => { k with full := true, trunc := trunc, words := markEnd trunc k.pkt k.words }
    { f with filling := none, seen := 0, part := [] }

/-- A bank becoming FULL is an interrupt source of the Joiner that serves the die (R214). -/
def State.bankIrq (s : State) (d : Nat) : State := s.modJn (s.servJ d) fun j => { j with irqPending := j.irqPending ||| 2 }

/-- Truncate a cluster's packet and drop its queued request (R219); `c` 0 to 7 line, 8 to 23 host. -/
def State.capTruncate (s : State) (c : Nat) : State :=
  let d := if c < 8 then dieOfLine c else dieOfHost (c - 8)
  let s := if (s.fifo c).filling.isSome then (s.inc (JNR.CAP_TRUNC d)).bankIrq d else s
  s.modFifo c fun f => { f.finish true with queued := none }

/-! ### Capture ring -/

/-- Positions held (R469). -/
def ringSize : Nat := 16384

/-- Raise CAP_WPOS, and overtake the mark where it falls out of the ring (R473). -/
def State.capAdvance (s : State) (n k : Nat) : State :=
  let s := s.add (OBS.CAP_WPOS n) k
  let gap := (s.rd (OBS.CAP_WPOS n) + 2 ^ 32 - s.rd (OBS.CAP_MARK n)) % 2 ^ 32
  if s.bit (OBS.CAP_FLAGS n) 0 ∧ gap > ringSize then
    ((s.wrBit (OBS.CAP_FLAGS n) 0 false).wrBit (OBS.CAP_FLAGS n) 1 true).inc OBS.CAP_OVERTAKEN_CNT
  else s

/-- Words still to write before the capture ends; none before the trigger (R471). -/
def State.capLeft (s : State) (n : Nat) : Option Nat :=
  if s.rd (OBS.CAP_STATE n) = 2 then
    some ((s.cap n).post - (s.rd (OBS.CAP_WPOS n) + 2 ^ 32 - s.rd (OBS.CAP_TRIG_POS n)) % 2 ^ 32)
  else none

/-- Set the rewind mark of a lane at CAP_WPOS (R473). -/
def State.capMark (s : State) (n : Nat) : State :=
  ((s.wr (OBS.CAP_MARK n) (s.rd (OBS.CAP_WPOS n))).wrBit (OBS.CAP_FLAGS n) 0 true).wrBit (OBS.CAP_FLAGS n) 1 false

/-- Write one data-path word to a running ring (R469). -/
def State.capRing (s : State) (n : Nat) (d : RxTaps) : State :=
  let st := s.rd (OBS.CAP_STATE n)
  if st = 1 ∨ st = 2 then
    let c := s.cap n
    let x := d.words c.point c.part
    let ws := match s.capLeft n with
      | none => x.1
      | some k => x.1.take k
    let p := s.rd (OBS.CAP_WPOS n)
    let m := (List.range ws.length).foldl (fun m i => spSet 0 m ((p + i) % ringSize) (ws.getD i 0).toNat) c.words
    let bad := c.bad.filter fun b => decide ((b + ringSize - p % ringSize) % ringSize ≥ ws.length)
    (s.modCap n fun c => { c with words := m, part := x.2, bad := bad }).capAdvance n ws.length
  else s

/-- The armed event occurs: its position is fixed, or it is ignored and counted after the trigger (R471). -/
def State.capEvent (s : State) (n trigger pos : Nat) : State :=
  let st := s.rd (OBS.CAP_STATE n)
  if (s.cap n).trigger ≠ trigger then s
  else if st = 1 ∧ (s.cap n).hit.isNone then s.modCap n fun c => { c with hit := some pos }
  else if st = 1 ∨ st = 2 then s.inc OBS.CAP_TRIG_IGNORED
  else s

/-- End a capture early (R472). -/
def State.capEndEarly (s : State) (n : Nat) (name : String) : State :=
  let st := s.rd (OBS.CAP_STATE n)
  if st = 1 ∨ st = 2 then
    let s := s.refuseIf (s.cap n).ref .precondition name ((s.rd (OBS.CAP_WPOS n) + 2 ^ 32 - 1) % 2 ^ 32)
    let s := match (s.cap n).ref with
      | some r => s.endOp r.rid
      | none => s
    let s := s.modCap n fun c => { c with ref := none, hit := none }
    (s.wr (OBS.CAP_STATE n) 3).wrBit (OBS.CAP_FLAGS n) 3 true
  else s

/-! ### Histograms -/

/-- The bin of a value (R475). -/
def histBin (cfg : Nat) (x : Int) : Nat :=
  let k := (x - sgn 12 (bits cfg 23 12)) / ((2 ^ bits cfg 27 24 : Nat) : Int)
  if k < 0 then 0 else if k > 63 then 63 else k.toNat

/-- Start a histogram run (R476); nothing where EN is 0. -/
def State.histStart (s : State) (n : Nat) : State :=
  if bits (s.rd (OBS.HIST_CFG n)) 31 31 = 1 then
    { s with hists := modNth none s.hists n fun _ => some ⟨List.replicate 64 0, s.rd (OBS.HIST_TICKS n)⟩ }
  else s

/-- Count the eight samples of a data-path word. -/
def State.histWord (s : State) (n : Nat) (d : RxTaps) : State :=
  let cfg := s.rd (OBS.HIST_CFG n)
  let st := s.rd (LRX.STATE n)
  match s.hists.getD n none with
  | none => s
  | some h =>
    if st = 2 ∨ st = 3 ∨ st = 4 then
      let src := match bits cfg 29 28 with
        | 0 => d.raw
        | 1 => d.ffe
        | _ => d.ctx.map fun (x : Int × Nat) => x.1
      let bins := (List.range 8).foldl (fun b i =>
        modNth 0 b (histBin cfg (src.getD (16 * i) 0)) fun v => min (v + 1) 0xFFFFFFFF) h.bins
      { s with hists := modNth none s.hists n fun _ => some { h with bins := bins } }
    else s

end Sys2Proof.Machine
end

