-- ==== Sys2Proof/Machine/JoinerIssue.lean ====
section
/-!
DEFINITION. Issue of Y syllables, memory accesses and their stalls, publish, capture and release requests at retirement,
the end of a slot (R210 to R216, R234 to R244, R252 to R256).
-/

namespace Sys2Proof.Machine

/-! ### Requests at retirement -/

/-- Can Joiner `d` reach, and does it serve, a die (R252)? -/
def State.reaches (s : State) (d die : Nat) : Bool :=
  decide (s.servJ die = d) && !(s.sys.bridgeLost && decide (die ≠ d))

/-- The outcome of a capture request (R253), and the request. -/
def State.capOutcome (s : State) (d tgt point dec : Nat) (count start : Word) : Nat × CapReq :=
  let c := clusterOf tgt
  let sb := start.toNat
  let r : CapReq :=
    { point := point, count := count.toNat, dec := dec
      start := if sb ≥ 2 ^ 31 then some (sb % 2048) else none, after := s.later d 1 }
  let legalStart := if sb ≥ 2 ^ 31 then decide (sb % 2 ^ 31 < 2048) else decide (sb = 0)
  if !s.reaches d (dieOfTarget tgt) then (5, r)
  else if ¬ (1 ≤ count.toNat ∧ count.toNat ≤ 512) ∨ !legalStart ∨ point > (if tgt < 8 then 5 else 2) then (2, r)
  else if (s.fifo c).queued.isSome then (1, r)
  else (0, r)

/-- The checks of a PUB in the cycle their outcome reaches SD (R252): what issuing the publish then would answer. -/
def State.pubOutcome (s : State) (d tgt kind idx c : Nat) : Nat :=
  (s.issuePub d kind tgt idx (64 * (s.jn d).slot.getD 0 + c)).1

/-- The outcome of a request becomes the value its SD receives. -/
def State.answerAsk (s : State) (d : Nat) (f : Flight) (sd o : Nat) : State :=
  s.modJn d fun j => { j with flights := j.flights.map fun g =>
    if g = f then { f with eff := .scalar sd (BitVec.ofNat 32 o) } else g }

/-- The checks of publish and capture requests, and the requests as they retire (R252, R253). -/
def State.sysEff (s : State) (d : Nat) (f : Flight) : State :=
  match f.eff with
  | .askPub sd tgt kind idx => s.answerAsk d f sd (s.pubOutcome d tgt kind idx f.ret)
  | .pub tgt kind idx =>
    let o := s.issuePub d kind tgt idx (64 * (s.jn d).slot.getD 0 + f.ret)
    if o.1 = 0 then o.2.countEv d 0x09 1 else o.2
  | .askCap sd tgt point dec count start => s.answerAsk d f sd (s.capOutcome d tgt point dec count start).1
  | .capreq tgt point dec count start =>
    let o := s.capOutcome d tgt point dec count start
    if o.1 = 0 then s.modFifo (clusterOf tgt) fun f => { f with queued := some o.2 } else s
  | .crel tgt bank =>
    if s.reaches d (dieOfTarget tgt) then
      s.modFifo (clusterOf tgt) fun f =>
        if f.filling.any fun x => decide (x.1 = bank) then f else f.modBank bank fun _ => .reset
    else s
  | _ => s

/-! ### End of a slot -/

/-- A slot whose YIELD retires in time ends its work (R256): what was issued before completes, the rest of its cycles are
idle. -/
def State.yieldEnd (s : State) (d : Nat) : State :=
  let j := s.jn d
  match j.slot, j.yieldAt with
  | some k, some y =>
    if y < j.slotLen then
      let s := s.landDue State.sysEff d y
      if (s.jn d).slot.isNone then s
      else
        let s := s.countEv d 0x0E (j.slotLen - 1 - y)
        (s.modSlot d k fun b => { b with overruns := 0, latePrev := false }).leaveSlot d y
    else s
  | _, _ => s

/-! ### Issue of a Y syllable -/

/-- Issue a Y syllable, which completes its bundle: destinations for R239, its longest latency, stall cycles, its
effects with their latencies, what it does to the machine at issue, and what it does to control. -/
def State.yOp (s : State) (d : Nat) (legal : Bool) (dests : List Nat) (lat stall : Nat) (effs : List (Nat × Eff))
    (pre : State → State := fun s => s) (ctl : Joiner → Joiner := fun j => j) : State :=
  let j := s.jn d
  if !j.issuing then s
  else if !(legal && j.bundleOk) || j.xDest.any (fun x => dests.contains x) then s.illegal d
  else
    let s := (pre s).countEv d 0x01 (1 + stall)
    let s := s.modJn d fun j => (ctl (j.complete stall lat effs)).advance stall
    let s := s.landDue State.sysEff d (s.jn d).cycle
    match (s.jn d).badBranch, (s.jn d).branch with
    | some t, none => s.branchFault d t
    | _, _ => s

/-- The count of one retired instruction. -/
def retired (lat : Nat) : Nat × Eff := (max 2 lat, .count 0x02)

/-! ### Memory accesses -/

/-- What a YM syllable asks for (R241, R242, R259). -/
inductive Access where
  | illegal
  | off
  | go (ea : Nat) (upd : List (Nat × Eff))
  deriving DecidableEq, Repr

/-- Address, alignment and gate of a YM syllable. -/
def Joiner.access (j : Joiner) (x : Mem) (size align : Nat) : Access :=
  if (1 ≤ x.g.toNat ∧ x.g.toNat ≤ 3) ∨ x.amode = 3 then .illegal
  else if !j.gateOn x.g then .off
  else match j.ea x size with
    | none => .illegal
    | some (ea, upd) =>
      if ea.toNat % align ≠ 0 then .illegal
      else .go ea.toNat (match upd with
        | some v => [(1, .addr x.a.toNat v)]
        | none => [])

/-- A gated-off access (R259): its destination still counts for R239. -/
def State.gatedOff (s : State) (d : Nat) (dests : List Nat) : State := s.yOp d true dests 0 0 [retired 0]

/-- Number of set bits below `n`. -/
def popcount (v n : Nat) : Nat := ((List.range n).filter fun i => v.testBit i).length

/-- Errors of a data-memory load (R204): `n` words touched. -/
def State.dmEcc (s : State) (d : Nat) (e : Ecc) (n : Nat) : State :=
  let bad := popcount e.bad.toNat n
  let s := s.add (JNR.DM_CORR d) (popcount (e.fixed &&& ~~~ e.bad).toNat n)
  let s := s.add (JNR.DM_UNCORR d) bad
  match (s.jn d).slot with
  | some k => if bad = 0 then s else s.modSlot d k fun b => { b with dmErr := true }
  | none => s

/-- The stall of a data-memory load (R244). -/
def State.dmStall (s : State) (d ea : Nat) : Nat := if (s.jn d).rowConflict ea then 1 else 0

/-- The 32 lanes at a data-memory address, failing words zero (R204). -/
def vecAt (dm : List (Nat × Nat)) (ea : Nat) (e : Ecc) : List Half :=
  (List.range 32).map fun k => BitVec.ofNat 16 (if e.bad.getLsbD (k / 2) then 0 else dmHalf dm (ea + 2 * k))

/-- Issue a load of data memory. -/
def State.dmLoad (s : State) (d ea len words : Nat) (e : Ecc) (dests : List Nat) (effs : List (Nat × Eff)) : State :=
  if !s.mayRead d ea len then (if (s.jn d).issuing then s.sandboxFault d ea else s)
  else
    let st := s.dmStall d ea
    s.yOp d true dests 3 st (effs ++ [retired 3]) fun s => (s.dmEcc d e words).countEv d 0x04 st

/-- Four capture words of an aperture with their sidebands (R241): from a bank that is not FULL, beyond its words, or
over a lost bridge, zero data with POISON; a word failing its parity, its data with POISON (R217). -/
def State.capWords (s : State) (d c bank w : Nat) (bad : BitVec 16) : List (BitVec 128 × BitVec 16) :=
  let die := if c < 8 then dieOfLine c else dieOfHost (c - 8)
  let b := (s.fifo c).bank bank
  (List.range 4).map fun i =>
    if s.sys.bridgeLost && decide (die ≠ d) || !b.full then (0, 0x4000)
    else match b.words[w + i]? with
      | none => (0, 0x4000)
      | some x => if bad.getLsbD i || decide (x.2.toNat % 16 ≠ parBits x.1) then (x.1, x.2 ||| 0x4000) else x

/-- The stall of an aperture read at slot cycle `cycle`, its event (R244), and whether it is of the own die. -/
def State.capStall (s : State) (d c : Nat) : Nat × Nat × Bool :=
  let die := if c < 8 then dieOfLine c else dieOfHost (c - 8)
  let j := s.jn d
  if die ≠ d then (36, 0x06, false)
  else if j.lastCap.any fun x => decide (x + 1 = j.cycle) then (1, 0x05, true)
  else (0, 0x05, true)

/-- Issue a read of an aperture (R217, R220, R241, R244). -/
def State.capLoad (s : State) (d c : Nat) (ws : List (BitVec 128 × BitVec 16)) (dests : List Nat)
    (effs : List (Nat × Eff)) : State :=
  let st := s.capStall d c
  let poisoned := (ws.filter fun x => x.2.getLsbD 14).length
  s.yOp d true dests 3 st.1 (effs ++ [retired 3])
    (fun s => ((s.add (JNR.CAP_POISON d) poisoned).countEv d 0x0B 4).countEv d 0x0C poisoned |>.countEv d st.2.1 st.1)
    (fun j => if st.2.2 then { j with lastCap := some (j.cycle + st.1) } else j)

/-- Data lanes of capture words (R241). -/
def capLanes (ws : List (BitVec 128 × BitVec 16)) : List Half :=
  ws.flatMap fun x => (List.range 8).map fun i => x.1.extractLsb' (16 * i) 16

/-- Capture status words (Table 7-9). -/
def CapFifo.status (f : CapFifo) (bank word : Nat) : Word :=
  let b := f.bank bank
  if word = 0 then
    BitVec.ofNat 32 (b.full.toNat * 2 ^ 31 + b.trunc.toNat * 2 ^ 30 + b.point % 8 * 2 ^ 27 + b.words.length % 1024 * 2 ^ 17 +
      b.pkt % 256 * 2 ^ 9)
  else BitVec.ofNat 32 (b.tick % 2 ^ 20 * 2 ^ 12 + b.off % 2 ^ 12)

/-! ### Control -/

/-- A taken branch to an address: three delay slots, then the target (R238). -/
def Joiner.take (j : Joiner) (t : Nat) : Joiner := { j with branch := some (4, t), delay := 4 }
/-- A branch not taken still has its delay slots (R260). -/
def Joiner.notTaken (j : Joiner) : Joiner := { j with delay := 4 }
/-- May a branch issue here (R260)? -/
def Joiner.mayBranch (j : Joiner) : Bool := j.rep.isNone && decide (j.delay = 0)
/-- The target of an offset in bundles, a 32-bit address. -/
def Joiner.rel (j : Joiner) (off : BitVec 16) : Nat := (((j.pc : Int) + 8 * off.toInt) % 2 ^ 32).toNat

/-- May the running code branch there: user code within the user region, factory code within program memory (R251)? -/
def State.mayReach (s : State) (d t : Nat) : Bool :=
  if s.isUser d then decide (0x30000 ≤ t ∧ t < 0x40000) else decide (t < 0x40000)
/-- Issue a branch (R238, R251). -/
def State.branchOp (s : State) (d : Nat) (legal taken : Bool) (t : Nat) (dests : List Nat) (effs : List (Nat × Eff)) : State :=
  s.yOp d (legal && (s.jn d).mayBranch) dests 1 0 (effs ++ [retired 1] ++ (if taken then [(2, .count 0x07)] else []) ++
      (if taken && !s.mayReach d t then [(2, .badBranch t)] else []))
    (fun s => s) (fun j => if taken then j.take t else j.notTaken)

end Sys2Proof.Machine
end

