-- ==== Sys2Proof/Machine/Fec.lean ====
section
/-!
DEFINITION. The inner code: block order, extended Hamming codeword, coset masks, the scheduled decoder, the PRBS31
recurrence of fill (R144, R147 to R150, R153, R154, R159, R160).
-/

namespace Sys2Proof.Machine

/-- Multiply by x modulo x^7 + x^3 + 1 (R150). -/
def gfStep (v : Nat) : Nat := if v ≥ 64 then (2 * v - 128) ^^^ 9 else 2 * v
/-- x^k modulo g(x). -/
def gfPow : Nat → Nat
  | 0 => 1
  | k + 1 => gfStep (gfPow k)
/-- Hamming syndrome contribution of codeword bit `k`, 0 to 126. -/
def gfCol (k : Nat) : Nat := gfPow (126 - k)
/-- Syndromes of the codeword bits in order, 0 for bit 127. -/
def gfCols : List Nat := ((List.range 127).map gfCol) ++ [0]

/-- Coset masks of codewords 0 to 3 (R150). -/
def coset (c : Nat) : Nat := ([0x00, 0x0F, 0xF0, 0xFF] : List Nat).getD c 0
/-- Coset mask bit of a codeword bit. -/
def cosetBit (c i : Nat) : Bool := decide (i ≥ 120) && (coset c).testBit (i - 120)

/-- Hamming syndrome of 128 bits. -/
def syndrome (cw : List Bool) : Nat := (cw.zip gfCols).foldl (fun s x => if x.1 then s ^^^ x.2 else s) 0
/-- Is the weight odd? -/
def oddWeight (cw : List Bool) : Bool := cw.foldl (fun p b => p ^^ b) false

/-- The codeword of 120 information bits in position `c` of its block (R150). -/
def encodeWord (c : Nat) (info : List Bool) : List Bool :=
  let rem := syndrome (info ++ List.replicate 8 false)
  let par := (List.range 7).map fun i => rem.testBit (6 - i)
  let cw := info ++ par
  let cw := cw ++ [oddWeight cw]
  (List.range 128).map fun i => (cw.getD i false) ^^ cosetBit c i

/-- The four codewords of a block of 480 payload bits (R148). -/
def encodeBlock (bs : List Bool) : List (List Bool) :=
  (List.range 4).map fun c => encodeWord c ((List.range 120).map fun m => bs.getD (4 * m + c) false)

/-- The bit pair (MSB, LSB) of line symbol `k` of a block (R149). -/
def blockPair (cws : List (List Bool)) (k : Nat) : Bool × Bool :=
  let cw := cws.getD (k % 4) []
  (cw.getD (2 * (k / 4)) false, cw.getD (2 * (k / 4) + 1) false)

/-- Level index of a Gray pair (R88). -/
def grayLevel (p : Bool × Bool) : Nat :=
  match p with
  | (false, false) => 0
  | (false, true) => 1
  | (true, true) => 2
  | (true, false) => 3
/-- Gray pair of a level index (R70). -/
def levelGray (v : Nat) : Bool × Bool :=
  match v with
  | 0 => (false, false)
  | 1 => (false, true)
  | 2 => (true, true)
  | _ => (true, false)

/-- Payload bits of a word: two host symbols of H(2n), then two of H(2n+1), from the bits of each lane (R144). -/
def payload (h0 h1 : List Bool) : List Bool :=
  (List.range 30).flatMap fun i => (h0.drop (4 * i)).take 4 ++ (h1.drop (4 * i)).take 4

/-- The first-pass slicer of a line lane (R62), and the slicer of a host lane (R182). -/
def firstPass (z : Int) : Nat := (if -256 ≤ z then 1 else 0) + (if 0 ≤ z then 1 else 0) + (if 256 ≤ z then 1 else 0)
/-- The level value of an index: −3, −1, +1, +3 (R66, R182). -/
def levelValue (v : Nat) : Int := 2 * (v : Int) - 3

/-- The LLRs of codeword `c` of a block of 256 symbols (R149). -/
def wordLlrs (blk : List (Nat × Nat)) (c : Nat) : List Nat :=
  (List.range 64).flatMap fun j => let x := blk.getD (4 * j + c) (0, 0); [x.1, x.2]

/-- Bit positions ranked by magnitude, lowest first, ties in ascending index (R153). -/
def leastReliable (mags : List Nat) : List Nat :=
  (List.range 8).flatMap fun m => (List.range mags.length).filter fun i => decide (mags.getD i 0 = m)

/-- The bit the algebraic step inverts in a word with this syndrome and parity (Table 5-2): `none` no candidate,
`some none` the word itself, `some (some i)` bit `i` inverted. -/
def algebraic (s : Nat) (odd : Bool) : Option (Option Nat) :=
  if s = 0 then (if odd then some (some 127) else some none)
  else if odd then (gfCols.idxOf? s).map some
  else none

/-- The bits in which the candidate of one schedule mask differs from the hard decisions (R153). -/
def candidate (s0 : Nat) (odd0 : Bool) (r : List Nat) (mask : Nat) : Option (List Nat) :=
  let flips := (List.range 6).filterMap fun i => if mask.testBit i then r[i]? else none
  let s := flips.foldl (fun s i => s ^^^ gfCols.getD i 0) s0
  let odd := odd0 ^^ decide (flips.length % 2 = 1)
  match algebraic s odd with
  | none => none
  | some none => some flips
  | some (some i) => some (if flips.contains i then flips.filter fun x => decide (x ≠ i) else flips ++ [i])

/-- What the decoder delivers for one codeword: information bits, bits changed, uncorrectable, zero syndrome on the hard
decisions (R152). -/
structure Decoded where
  info : List Bool
  changed : Nat
  uncorr : Bool
  zero : Bool
  deriving DecidableEq, Repr

/-- Hamming syndrome and parity of hard decisions with the coset mask of codeword `c` removed. -/
def hardCheck (llrs : List Nat) (c : Nat) : Nat × Bool :=
  let w := (List.range 128).map fun i => (llrs.getD i 0).testBit 3 ^^ cosetBit c i
  (syndrome w, oddWeight w)

/-- The scheduled decoder on one codeword (R153, R154). -/
def decodeWord (masks : List Nat) (c : Nat) (llrs : List Nat) : Decoded :=
  let hard := llrs.map fun l => l.testBit 3
  let mags := llrs.map fun l => l % 8
  let r := (leastReliable mags).take 6
  let h := hardCheck llrs c
  let best := masks.foldl (fun (b : Option (Nat × List Nat)) m =>
    match candidate h.1 h.2 r m with
    | none => b
    | some fl =>
      let w := (fl.map fun i => mags.getD i 0).sum
      match b with
      | none => some (w, fl)
      | some (v, _) => if w < v then some (w, fl) else b) none
  let zero := decide (h.1 = 0)
  match best with
  | none => ⟨hard.take 120, 0, true, zero⟩
  | some (_, fl) => ⟨(List.range 120).map fun i => (hard.getD i false) ^^ fl.contains i, fl.length, false, zero⟩

/-- The 480 payload bits of four decoded codewords (R148). -/
def blockPayload (ds : List Decoded) : List Bool :=
  (List.range 480).map fun b => match ds[b % 4]? with
    | some d => d.info.getD (b / 4) false
    | none => false

/-- One bit of PRBS31, x^31 + x^28 + 1 (R159), and the next register; bit i of the register is the bit i + 1 earlier. -/
def prbsNext (r : BitVec 31) : Bool × BitVec 31 :=
  let b := r.getLsbD 30 ^^ r.getLsbD 27
  (b, (r <<< 1) ||| (if b then 1 else 0))

/-- `k` bits of the generator. -/
def prbsBits : Nat → BitVec 31 → List Bool × BitVec 31
  | 0, r => ([], r)
  | k + 1, r =>
    let x := prbsNext r
    let y := prbsBits k x.2
    (x.1 :: y.1, y.2)

/-- Bits that disagree with the recurrence, and the checker's register after them (R160). -/
def prbsCheck (hist : Nat) (bs : List Bool) : Nat × Nat :=
  bs.foldl (fun x b =>
    let want := x.2.testBit 27 ^^ x.2.testBit 30
    (if b = want then x.1 else x.1 + 1, (2 * x.2 + b.toNat) % 2 ^ 31)) (0, hist)

end Sys2Proof.Machine
end

