-- ==== Sys2Proof/Machine/HostPath.lean ====
section
/-!
DEFINITION. The host serial paths: receive equaliser, slicer, precoding and polarity (R181, R182, R187), and the host
transmitter with its content, precoding and six-tap FIR (R179, R180, R184, R185, R187, R194, R195, Tables 6-3 and 6-5).
-/

namespace Sys2Proof.Machine

/-! ### Receive -/

/-- The host FFE at position `q` of a word, over a window whose position 8 is symbol 0 (R182). DESIGN CHOICE: samples in
units of d/256, rounded as R59 rounds (log 172). -/
def hostFfe (taps win : List Int) (q : Nat) : Int :=
  sat 10 (asr (((List.range 12).map fun k => taps.getD k 0 * win.getD (q + 11 - k) 0).sum + 32) 6)

/-- Slicer inputs and decisions on FFE outputs, and the last decision: the DFE subtracts its tap times the last level value,
and the slicer decides (R182). -/
def hostDecide (dfe : Int) (prev : Nat) (fs : List Int) : List (Int × Nat) × Nat :=
  fs.foldl (fun (acc : List (Int × Nat) × Nat) f =>
    let u := f - dfe * levelValue acc.2
    (acc.1 ++ [(u, firstPass u)], firstPass u)) ([], prev)

/-- Remove 1/(1+D) mod 4 precoding (R187). -/
def precodeOff (prev : Nat) (vs : List Nat) : List Nat := ((prev :: vs).zip vs).map fun x => (x.1 + x.2) % 4
/-- Apply 1/(1+D) mod 4 precoding (R187). -/
def precodeOn (prev : Nat) (vs : List Nat) : List Nat :=
  (vs.foldl (fun (acc : List Nat × Nat) v => let p := (v + 4 - acc.2) % 4; (acc.1 ++ [p], p)) ([], prev)).1

/-- The bits of level indices, MSB first (R70, R144). -/
def grayBits (vs : List Nat) : List Bool := vs.flatMap fun v => let g := levelGray v; [g.1, g.2]
/-- The level indices of bits (R88). -/
def grayLevels (bs : List Bool) : List Nat :=
  (List.range (bs.length / 2)).map fun i => grayLevel (bs.getD (2 * i) false, bs.getD (2 * i + 1) false)

/-- The receiver of a host lane takes one word of samples (R181, R182, R187): the bits of its 60 symbols, none where it is
not running. -/
def State.hostRxWord (s : State) (k : Nat) (xs : List (BitVec 10)) : State × List Bool :=
  let h := s.hostL k
  let st := s.rd (HRX.STATE k)
  if st < 2 ∨ 5 < st then (s, [])
  else
    let x := xs.map fun c => if s.rd (HRX.INPUT_POL k) = 1 then -c.toInt else c.toInt
    let win := h.samples ++ x
    let taps := (List.range 12).map fun i => s.rdS (HRX.FFE_COEF k i)
    let f := (List.range 60).map (hostFfe taps win)
    let d := hostDecide (s.rdS (HRX.DFE_COEF k)) h.decided f
    let sent := d.1.map (·.2)
    let vs := if s.bit (HRX.FLAGS k) 5 then precodeOff h.rxPrev sent else sent
    let s := if st = 3 ∨ st = 4 then s.modFifo (8 + k) fun c => c.take (s.nowH k) h.words (HostTaps.mk x f d.1).items else s
    (s.modHost k fun h => { h with samples := win.drop 60, decided := d.2, rxPrev := d.2, words := h.words + 1 }, grayBits vs)

/-- The payload of a word of a line lane: the bits of its host pair through the IN tap, two symbols of each lane in turn
(R144, R164). -/
def State.hostPair (s : State) (n : Nat) (h0 h1 : List (BitVec 10)) : State × List Bool :=
  let a := s.hostRxWord (2 * n) h0
  let b := a.1.hostRxWord (2 * n + 1) h1
  let x := b.1.tapPass (2 * n) false a.2
  let y := x.1.tapPass (2 * n + 1) false b.2
  (y.1, payload x.2 y.2)

/-! ### Transmit -/

/-- Are the output stages enabled: VDD_ANA valid and TRIM_VALID set (R105, R180)? -/
def State.outputsOn (s : State) : Bool := s.sys.pins.pgAna && s.bit RST.FLAGS 0

/-- What a host lane sends (Tables 6-3 and 6-5). -/
inductive HostKind where
  | highZ | idle | training
  /-- The line payload, or in line loss the decoder output passed unchanged. -/
  | lineData
  | prbs31q
  deriving DecidableEq, Repr

/-- What a host lane sends now: nothing in DOWN, FAILED and under SQUELCH, training frames while it trains, else the line
payload or the content of line loss. -/
def State.hostKind (s : State) (k : Nat) : HostKind :=
  let st := s.rd (HRX.STATE k)
  if !s.outputsOn then .highZ
  else if st = 0 ∨ st = 6 ∨ s.rd (HTX.SQUELCH k) = 1 then .idle
  else if s.bit (HTX.FLAGS k) 4 then .training
  else if !s.bit (HTX.FLAGS k) 0 then .lineData
  else match s.rd (HTX.LINE_LOSS_ACT k) with
    | 0 => .prbs31q
    | 1 => .idle
    | _ => .lineData

/-- The control and status fields a lane's training frames carry (R185, R187): the answer to the last request, the
precoding request and the ready status. -/
structure TrainFrame where
  answer : TrainAnswer
  precode : Bool
  ready : Bool
  deriving DecidableEq, Repr

/-- The frame a lane sends while it trains. -/
def State.trainFrame (s : State) (k : Nat) : TrainFrame :=
  ⟨(s.hostL k).answer, decide (s.rd (HRX.PRECODE_REQ k) = 1), (s.hostL k).ready⟩
/-- A frame as a number, for the symbols of the standard. -/
def TrainFrame.code (f : TrainFrame) : Nat :=
  (match f.answer with
    | .none => 0
    | .updated => 1
    | .atLimit => 2) + 4 * f.precode.toNat + 8 * f.ready.toNat

/-- The 60 level indices a lane sends next, before precoding: training symbols of the standard, PRBS31Q (Gray-coded pairs
of the inverted PRBS31, PRESUMED as IEEE 802.3 has it; log 172), or decoder bits; where the decoder has delivered none,
they are free. -/
def State.hostLevels (s : State) (k : Nat) : State × List Nat :=
  let h := s.hostL k
  match s.hostKind k with
  | .training =>
    (s.modHost k fun h => { h with trainPos := h.trainPos + 60 },
      (List.range 60).map fun q => (Config.trainSymbol k (s.trainFrame k).code (h.trainPos + q)).toNat)
  | .prbs31q =>
    let r := match h.prbs with
      | some r => (s, r)
      | none => (s.draw.2, s.draw.1.setWidth 31)
    let x := prbsBits 120 r.2
    (r.1.modHost k fun h => { h with prbs := some x.2 }, grayLevels (x.1.map (!·)))
  | .lineData =>
    if 120 ≤ h.toSend.length then (s, grayLevels (h.toSend.take 120))
    else
      let a := s.draw
      let b := a.2.draw
      (b.2, (List.range 60).map fun q => ((if q < 32 then a.1 else b.1).toNat / 4 ^ (q % 32)) % 4)
  | _ => (s, [])

/-- The six-tap FIR over level values: tap k is c(k − 3), and window position 2 is symbol 0 (R184). -/
def hostFir (taps win : List Int) (q : Nat) : Int :=
  ((List.range 6).map fun k => taps.getD k 0 * win.getD (q + 5 - k) 0).sum

/-- A host lane sends one word (R184, R187, R194): content, precoding where it is in use, FIR, polarity. A silent output
keeps its transmitter as it was. -/
def State.hostTxWord (s : State) (k : Nat) : State :=
  let x := s.hostLevels k
  let s := x.1.modHost k fun h => { h with toSend := h.toSend.drop 120 }
  if x.2 = [] then s.modHost k fun h => { h with sent := [] }
  else
    let h := s.hostL k
    let v := if s.bit (HTX.FLAGS k) 2 ∧ s.hostKind k ≠ .training then precodeOn h.txPrev x.2 else x.2
    let win := h.txWin ++ v.map levelValue
    let taps := (List.range 6).map fun i => s.rdS (HTX.FIR_TAP k i)
    let out := (List.range 60).map fun q => let u := hostFir taps win q; if s.rd (HTX.OUT_POL k) = 1 then -u else u
    s.modHost k fun h => { h with txPrev := v.getLastD 0, txWin := win.drop 60, sent := out }

/-- A decoded block of a line lane goes to its host pair through the OUT tap (R144, R164). -/
def State.hostFeed (s : State) (n : Nat) (bs : List Bool) : State :=
  let lane := fun (i : Nat) => (List.range 60).flatMap fun m => (bs.drop (4 * (2 * m + i))).take 4
  [0, 1].foldl (fun s i =>
    let x := s.tapPass (2 * n + i) true (lane i)
    x.1.modHost (2 * n + i) fun h => { h with toSend := h.toSend ++ x.2 }) s

/-- Both host lanes of a pair send one word. -/
def State.hostSend (s : State) (n : Nat) : State := (s.hostTxWord (2 * n)).hostTxWord (2 * n + 1)

/-- The differential output of FIR values at a swing code, in units of mV / 384 (R179): the outer levels of a main tap of
1.0 lie at ± Vswing / 2. -/
def hostVolts (swing : Nat) (us : List Int) : List Int := us.map fun u => u * (400 + 40 * swing : Nat)

/-- What a host output pin pair shows (R180, R194, R195): the last word it sent. -/
inductive HostOut where
  | highZ | idle
  | training (f : TrainFrame) (volts : List Int)
  | lineData (volts : List Int)
  | prbs31q (volts : List Int)
  deriving DecidableEq, Repr

/-- The output of a host lane. -/
def State.hostOut (s : State) (k : Nat) : HostOut :=
  let v := hostVolts (s.rd (HTX.SWING k)) (s.hostL k).sent
  match s.hostKind k with
  | .highZ => .highZ
  | .idle => .idle
  | .training => .training (s.trainFrame k) v
  | .lineData => .lineData v
  | .prbs31q => .prbs31q v

end Sys2Proof.Machine
end

