-- ==== Sys2Proof/WellFormed.lean ====
section
/-!
DEFINITION. Well-formed operands: what the hardware can supply to a step. A command whose operands are not well formed
is refused by name.
-/

namespace Sys2Proof.WellFormed

/-- A line receive word (R26, R54): 128 codes and the two spare-slice samples of the word. -/
def rxWord (codes spare : List (BitVec 7)) : Bool := decide (codes.length = 128 ∧ spare.length = 2)

/-- A line transmit word (R145): 60 host samples of each lane of the pair. -/
def txWord (h0 h1 : List (BitVec 10)) : Bool := decide (h0.length = 60 ∧ h1.length = 60)

/-- Codeword starts on the four lanes of a tap (R163). -/
def tapLead (lead : List Nat) : Bool := decide (lead.length = 4)

/-- The measurements of one tick (R74, R162, R188): one entry per lane or region. -/
def tickFacts (f : TickFacts) : Bool :=
  decide (f.lineLow.length = 8 ∧ f.hostLow.length = 16 ∧ f.cdr.length = 16 ∧ f.slips.length = 16 ∧ f.ebuf.length = 16 ∧
    f.trims.length = 8) && f.trims.all fun m => decide (m.length = 0 ∨ m.length = 4)

/-- A measurement of every slice (R271), or of every sub-DAC (R276). -/
def slices (m : List SliceMeas) : Bool := decide (m.length = 66)
def subDacs (m : List TrimMeas) : Bool := decide (m.length = 4)

/-- Window sums (R283): eight line lanes, or 16 host lanes, four levels each. -/
def moments (n : Nat) (l : List Moments) : Bool := decide (l.length = n) && l.all fun m => decide (m.length = 4)

end Sys2Proof.WellFormed
end

