-- ==== Sys2Proof/Machine/LineRx.lean ====
section
/-!
DEFINITION. One word through a line receive cluster (R26, R47, R54, R57 to R71, R76, R148 to R154, R160, R162 to R164):
slice correction, FFE, context lookup, timing recovery, slicing, LLR map, framing and inner decoding.
-/

namespace Sys2Proof.Machine

/-- Slice correction of one code (R58). -/
def correct (word : Nat) (x : Int) : Int :=
  sat 10 (asr ((4 * x - sgn 8 (bits word 31 24)) * (bits word 23 14 : Int) + 256) 9)

/-- The FFE over a window whose position 128 is symbol 0 of the word filtered (R59). -/
def ffe (taps : List Int) (n m : Nat) (win : List Int) : List Int :=
  (List.range 128).map fun q =>
    let acc := ((List.range n).map fun k => taps.getD k 0 * win.getD (128 + q + m - k) 0).sum
    sat 11 (asr (acc + 32) 6)


/-- The context index of position `q` in a window whose position 128 is symbol 0 (Table 2-4). -/
def contextIndex (v : List Nat) (q : Nat) : Nat :=
  (List.range 6).foldl (fun i j => 4 * i + v.getD (128 + q + j - 3) 0) 0

/-- The phase detector over one word of z, given the last symbol before it (R66). -/
def phaseError (zPrev : Int) (z : List Int) : Int :=
  (((zPrev :: z).zip z).map fun x => x.2 * levelValue (firstPass x.1) - x.1 * levelValue (firstPass x.2)).sum

/-- Is |F| above 100 ppm (R69)? -/
def freqOver (f : BitVec 32) : Bool := decide (f.toInt.natAbs > 54975581)

/-- One step of the timing loop: P and F (R66, R68). DESIGN CHOICE: F wraps as P does (log 164). -/
def loopStep (row : Nat) (e : Int) (p f : BitVec 32) : BitVec 32 × BitVec 32 :=
  let f := if bits row 21 21 = 1 then f else f + BitVec.ofInt 32 (asr (e * 65536) (bits row 26 22))
  (p + f + BitVec.ofInt 32 (asr (e * 65536) (bits row 31 27)), f)

/-- The correction and class that Table 2-5 substitutes. -/
def contextCorr (on : Bool) (ceil : Nat) (entry : Option Nat) : Int × Nat :=
  if !on then (0, 0)
  else match entry with
    | none => (0, 0)
    | some e => if e % 16 ≥ ceil then (0, e % 16) else (sgn 12 (bits e 15 4), e % 16)

/-- Final slicing: the number of thresholds at or below z′ (R70). -/
def finalSlice (llr : List Nat) (z : Int) : Nat :=
  ((List.range 3).filter fun i => decide (sgn 16 (llr.getD i 0) ≤ z)).length

/-- One LLR (R71): the hard bit over the number of row thresholds at or below the distance. -/
def llrOf (llr : List Nat) (cls row : Nat) (hard : Bool) (dist : Nat) : Nat :=
  let mag := ((List.range 7).filter fun j => decide (llr.getD (4 + 14 * cls + 7 * row + j) 0 ≤ dist)).length
  8 * hard.toNat + mag

/-- Level index and the two LLRs of a symbol (R70, R71); magnitudes are 0 where the output is invalid (R76). -/
def symbolLlrs (llr : List Nat) (valid : Bool) (z : Int) (cls : Nat) : Nat × Nat × Nat :=
  let t := fun i => sgn 16 (llr.getD i 0)
  let v := finalSlice llr z
  let g := levelGray v
  let dm := (z - t 1).natAbs
  let dl := min (z - t 0).natAbs (z - t 2).natAbs
  let m := llrOf llr cls 0 g.1 dm
  let l := llrOf llr cls 1 g.2 dl
  if valid then (v, m, l) else (v, m / 8 * 8, l / 8 * 8)

/-- Enabled schedule entries still served, as masks in entry order (R153, R157). -/
def State.servedMasks (s : State) (n : Nat) : List Nat :=
  (List.range 16).filterMap fun p =>
    let e := s.rd (FEC.SCHED n p)
    if e.testBit 7 && !(s.rxL n).removed.contains p then some (e % 64) else none

/-- Symbols kept behind the newest word, so that a block at any offset is whole when it ends. -/
def keepSyms : Nat := 383

/-- The block that ends at offset `o` within the newest word, with the distance of its first symbol from the end of the
word (R147, R151). -/
def blockAt (buf : List (Nat × Nat)) (pos o : Nat) : Option (List (Nat × Nat) × Nat) :=
  let len := buf.length
  let first := len - 128
  let d := (o + 255 + 512 - (pos + first) % 256) % 256
  let i := first + d
  if d < 128 ∧ i ≥ 255 then some ((buf.drop (i - 255)).take 256, len - 1 - (i - 255)) else none

/-- Candidate offsets the hunt tests in a tick: sixteen of the sweep, and those that passed the tick before (R151). -/
def RxLane.huntList (r : RxLane) : List Nat :=
  let sweep := (List.range 16).map fun k => (r.candBase + k) % 256
  sweep ++ r.passed.filter fun o => !sweep.contains o

/-- Add one word to the hunt's counts (R151). -/
def RxLane.hunt (r : RxLane) (buf : List (Nat × Nat)) : RxLane :=
  let l := r.huntList
  let cands := (List.range l.length).map fun i =>
    let old := r.cands.getD i (0, 0)
    match blockAt buf r.pos (l.getD i 0) with
    | none => old
    | some (b, _) =>
      let good := ((List.range 4).filter fun c =>
        let h := hardCheck (wordLlrs b c) c
        decide (h.1 = 0) && !h.2).length
      (old.1 + 4, old.2 + good)
  { r with cands := cands }

/-- Counts of decoded codewords: changed, bits changed, uncorrectable, zero syndrome. -/
def decodeCounts (ds : List Decoded) : Nat × Nat × Nat × Nat :=
  ((ds.filter fun d => decide (d.changed ≠ 0)).length, (ds.map (·.changed)).sum,
    (ds.filter (·.uncorr)).length, (ds.filter (·.zero)).length)
/-- Add the counts of two codewords to the tick's sums. -/
def RxLane.count2 (r : RxLane) (x : Nat × Nat × Nat × Nat) : RxLane :=
  { r with cw := r.cw + 2, cwCorr := r.cwCorr + x.1, bitsCorr := r.bitsCorr + x.2.1, cwUncorr := r.cwUncorr + x.2.2.1,
           zeroSyn := r.zeroSyn + x.2.2.2 }

/-- Feed the fill checker with a decoded block (R160). -/
def RxLane.fillCheck (r : RxLane) (bs : List Bool) : RxLane :=
  let x := prbsCheck r.prbsHist bs
  let bad := r.winBad + x.1
  if r.winBlocks + 1 = 16 then { r with prbsHist := x.2, winBlocks := 0, winBad := 0, winDone := some bad }
  else { r with prbsHist := x.2, winBlocks := r.winBlocks + 1, winBad := bad }

/-- The decoder on one word's LLRs (R149 to R154, R160). The second component is the distance, in symbols from the end of
the word, of the first symbol of a block that held an uncorrectable codeword. -/
def State.decodeStep (s : State) (n : Nat) (valid : Bool) (sym : List (Nat × Nat)) : State × Option Nat :=
  let r := s.rxL n
  let buf := r.llrs ++ sym
  let trim := fun (r : RxLane) =>
    let d := buf.length - keepSyms
    { r with llrs := buf.drop d, pos := (r.pos + d) % 256 }
  match s.rd (FEC.FRAME_STATE n) with
  | 2 =>
    let (r, back) := match r.late with
      | none => (r, none)
      | some x => ((r.count2 x), (none : Option Nat))
    let r := { r with late := none }
    (match blockAt buf r.pos r.offset with
    | none => (s.modRx n fun _ => trim r, back)
    | some (b, dist) =>
      let masks := s.servedMasks n
      let ds := (List.range 4).map fun c => decodeWord masks c (wordLlrs b c)
      let bs := blockPayload ds
      let r := (r.count2 (decodeCounts (ds.take 2))).fillCheck bs
      let r := { r with late := some (decodeCounts (ds.drop 2)), out := bs, outValid := valid }
      ((s.modRx n fun _ => trim r).hostFeed n bs, if ds.any (·.uncorr) then some dist else none))
  | 1 =>
    let r := (r.hunt buf).count2 (0, 0, 2, 0)
    (s.modRx n fun _ => { trim r with outValid := false }, none)
  | _ => (s.modRx n fun r => { r with llrs := [], pos := 0, outValid := false }, none)

/-- Lag, in data-path words, of a capture point behind RAW. -/
def tapLag (point : Nat) : Nat := if point ≤ 2 then 0 else if point = 3 then 1 else 2

/-- The ring position of the symbol `dist` before the end of the word the decoder took (R471); none before position 0. -/
def State.backDate (s : State) (n dist : Nat) : Option Nat :=
  let c := s.cap n
  let wpos := s.rd (OBS.CAP_WPOS n)
  let back := 3 + dist / 128 - tapLag c.point
  let q := 127 - dist % 128
  match c.point with
  | 1 =>
    let words := 4 * wpos + c.part.length / 4
    if back ≤ words then some ((words - back) / 4) else none
  | 0 => if 8 * back ≤ wpos then some (wpos - 8 * back + q / 16) else none
  | _ => if 16 * back ≤ wpos then some (wpos - 16 * back + q / 8) else none

/-- Does a slice serve a phase? -/
def State.sliceServes (s : State) (n i : Nat) : Bool := (List.range 64).any fun p => decide (s.rd (LRX.SLICE_MAP n p) = i)
def sliceHealth (n : Nat) : Nat × Nat := (LRX.SLICE_HEALTH_LO n, LRX.SLICE_HEALTH_HI n)
/-- Usable slices out of service. -/
def State.spareSlices (s : State) (n : Nat) : List Nat :=
  (List.range 66).filter fun i => s.bit66 (sliceHealth n) i && !s.sliceServes n i
/-- Symbol positions of the two shadow samples of a data-path word (R54, R55): with two spares the first samples an even
phase and the second an odd one; a spare that is alone samples every phase in turn, at both its symbols (log 11). -/
def State.shadowPhases (s : State) (n : Nat) : List Nat :=
  let j := s.sinceL n (s.rxL n).sliceCycle
  match (s.spareSlices n).length with
  | 0 => []
  | 1 => [j % 64, j % 64 + 64]
  | _ => [2 * (j % 32), 2 * (j % 32) + 1]

/-- LINE_RX_WORD (R26): one word of codes after the slice map, the two spare-slice samples, memory errors that appear in
the context banks, and capture-ring words that stop passing their check. The host pair, whose transmit clock is 60 times
this word clock, sends its word (R176). -/
def execLineRxWord (n : Lane) (codes spare : List (BitVec 7)) (ups : List Upset) (capBad : List Nat) (s : State) :
    Result := finish s <|
  if !WellFormed.rxWord codes spare then .refused (.illFormed "LINE_RX_WORD")
  else
    let n := n.val
    let st := s.rd (LRX.STATE n)
    if st = 0 then .next s
    else
      let s := s.modTbl n .ctx fun m => if m.powered then m.upset ups else m
      let s := s.modCap n fun c => { c with bad := c.bad ++ capBad }
      let r := s.rxL n
      let x := codes.map BitVec.toInt
      let y := (List.range 128).map fun q => correct (r.slices.getD (s.rd (LRX.SLICE_MAP n (q % 64))) 0) (x.getD q 0)
      let taps := (List.range 33).map fun k => s.rdS (LRX.FFE_COEF n k)
      let z := ffe taps (s.rd (LRX.FFE_TAPS n)) (s.rd (LRX.FFE_MAIN n)) (r.y1 ++ r.y2 ++ y)
      let e := phaseError (r.z2.getLastD 0) z
      let running := decide (st = 3 ∨ (st = 2 ∧ r.step ≠ 3))
      let pf := if running then loopStep (r.gain.getD (1 + s.rd (LRX.TR_ROW n)) 0) e r.p r.f else (r.p, r.f)
      let v := (r.z1 ++ r.z2 ++ z).map firstPass
      let on := decide (s.rd (LRX.CTX_EN n) = 1) && !s.bit (CTX.FLAGS n) 0
      let ceil := s.rd (LRX.CTX_CLASS_CEIL n)
      let look := (List.range 128).foldl (fun (acc : State × List (Int × Nat)) q =>
        let l := acc.1.lookup n .ctx q (contextIndex v q)
        let c := contextCorr on ceil l.1
        (l.2, acc.2 ++ [(sat 12 (r.z2.getD q 0 + c.1), c.2)])) (s, [])
      let s := look.1
      let valid := decide (st = 3)
      let dec := look.2.map fun c => symbolLlrs r.llr valid c.1 c.2
      let taps : RxTaps :=
        { raw := x, corr := y, ffe := z, ctx := look.2, dec := dec,
          shadow := ((s.shadowPhases n).zip spare).flatMap fun w => [w.2.toInt, x.getD w.1 0] }
      let clips := (x.filter fun c => decide (c = -64 ∨ c = 63)).length
      let off := r.words
      let s := s.modRx n fun r => { r with
        y1 := r.y2, y2 := y, z1 := r.z2, z2 := z, p := pf.1, f := pf.2, words := r.words + 1, clips := r.clips + clips,
        absE := r.absE + e.natAbs, overNow := r.overNow || freqOver pf.2 }
      let s := (s.capRing n taps).histWord n taps
      let s := if st = 1 ∨ st = 2 ∨ st = 3 then s.modFifo n fun f => f.take (s.nowL n) off taps.items else s
      if st = 1 then .next (s.hostSend n)
      else
        let d := s.decodeStep n valid (dec.map fun x => (x.2.1, x.2.2))
        .next ((match d.2.bind (s.backDate n) with
          | some p => d.1.capEvent n 4 p
          | none => d.1).hostSend n)

end Sys2Proof.Machine
end

