-- ==== Sys2Proof/Machine/LineTx.lean ====
section
/-!
DEFINITION. One word through a line transmit cluster (R87 to R91, R93, R95, R96, R102, R144, R147 to R150, R159), and the
line output (R95, R96, R105 to R107, Table 3-7).
-/

namespace Sys2Proof.Machine

/-- The nominal level of an index (R90). -/
def nominal (v : Nat) : Int := 256 * (v : Int) - 384

/-- The shaping index of position `q` in a window whose position 128 is symbol 0 (Table 3-2). -/
def shapeIndex (v : List Nat) (q : Nat) : Nat :=
  (List.range 5).foldl (fun i j => 4 * i + v.getD (128 + q + j - 2) 0) 0

/-- The transmit FIR over a window whose position 128 is symbol 0, before saturation (R93). -/
def firRaw (taps : List Int) (m : Nat) (win : List Int) : List Int :=
  (List.range 128).map fun q =>
    asr (((List.range 9).map fun k => taps.getD k 0 * win.getD (128 + q + m - k) 0).sum + 1024) 11

/-- Shape one word between its neighbours (R89 to R91). -/
def State.shapeWord (s : State) (n : Nat) (before word after : List Nat) : State × List Int :=
  let on := decide (s.rd (LTX.SHP_EN n) = 1) && !s.bit (CTX.FLAGS n) 1
  let v := before ++ word ++ after
  (List.range 128).foldl (fun (acc : State × List Int) q =>
    let l := acc.1.lookup n .shp q (shapeIndex v q)
    let corr := match l.1 with
      | some e => if on then sgn 12 (bits e 15 4) else 0
      | none => 0
    (l.2, acc.2 ++ [sat 12 (nominal (word.getD q 0) + corr)])) (s, [])

/-- The transmit sense puts a sample with its shaping context index into the ring (R275, log 2, log 11). -/
def State.sensePut (s : State) (n index : Nat) : State :=
  let k := (s.txL n).sense
  let entry := s.draw.1.toNat % 256 + 256 * index
  (s.draw.2.modJn (s.servJ (dieOfLine n)) fun j => { j with dm := dmPut j.dm (senseRing n + 4 * (k % 128)) 4 entry }).modTx n
    fun t => { t with sense := (k + 1) % 128 }
/-- The transmit sense of one word sent: a sample for every 64 symbols. -/
def State.senseWord (s : State) (n : Nat) (v : List Nat) : State :=
  (List.range 2).foldl (fun s h => s.sensePut n (shapeIndex (List.replicate 128 0 ++ v) (32 + 64 * h))) s
/-- The samples of one word into the calibration load: the pattern of Table 9-5 is no data, and the index it has is free
(R275, log 2). -/
def State.senseCal (s : State) (n : Nat) : State :=
  (List.range 2).foldl (fun s _ => s.draw.2.sensePut n (s.draw.1.toNat % 1024)) s

/-- LINE_TX_WORD (R87): the 60 host samples of each lane of the pair, and memory errors that appear in the shaping
banks; the transmit sense samples the word converted (R275). DESIGN CHOICE: before the first word both histories are
zero (log 166). -/
def execLineTxWord (n : Lane) (h0 h1 : List (BitVec 10)) (ups : List Upset) (s : State) : Result := finish s <|
  if !WellFormed.txWord h0 h1 then .refused (.illFormed "LINE_TX_WORD")
  else
    let n := n.val
    let st := s.rd (LTX.STATE n)
    let rx := s.hostPair n h0 h1
    let s := rx.1
    if st ≠ 2 ∧ st ≠ 3 then .next (if st = 1 then s.senseCal n else s)
    else
      let s := s.modTbl n .shp fun m => if m.powered then m.upset ups else m
      let t := s.txL n
      let pb := if t.fill then prbsBits 240 t.prbs else (rx.2, t.prbs)
      let x := if t.half = [] then (pb.1, t.coded)
        else
          let cws := encodeBlock (t.half ++ pb.1)
          (([] : List Bool), t.coded ++ (List.range 256).map fun k => grayLevel (blockPair cws k))
      let t := { t with prbs := pb.2, half := x.1, coded := x.2 }
      if t.coded.length < 128 then .next (s.modTx n fun _ => t)
      else
        let v := t.coded.take 128
        let t := { t with coded := t.coded.drop 128 }
        if t.v2 = [] then .next (s.modTx n fun _ => { t with v1 := List.replicate 128 0, v2 := v })
        else
          let sh := s.shapeWord n t.v1 t.v2 v
          let s := sh.1
          if t.s2 = [] then
            .next (s.modTx n fun r => { r with
              prbs := t.prbs, half := t.half, coded := t.coded, v1 := t.v2, v2 := v, s1 := List.replicate 128 0, s2 := sh.2 })
          else
            let taps := (List.range 9).map fun k => s.rdS (LTX.FIR_TAP n k)
            let u := firRaw taps (s.rd (LTX.FIR_MAIN n)) (t.s1 ++ t.s2 ++ sh.2)
            let clipped := (u.filter fun a => decide (sat 7 a ≠ a)).length
            .next ((s.senseWord n t.v1).modTx n fun r => { r with
              prbs := t.prbs, half := t.half, coded := t.coded, v1 := t.v2, v2 := v, s1 := t.s2, s2 := sh.2
              dac := u.map (sat 7), sat := t.sat + clipped })

/-- What a line output pin pair shows (Table 3-7). -/
inductive LineOut where
  | highZ | idle
  /-- Driven: the differential output of the last word's 128 symbols, in units of mV / 16,002 (R96). -/
  | driven (volts : List Int)
  deriving DecidableEq, Repr

/-- The codes sub-DAC `k` converts of a word: those at positions q with q mod 4 = k (R95). -/
def subDac (codes : List Int) (k : Nat) : List Int := (List.range 32).map fun i => codes.getD (4 * i + k) 0
/-- The 4:1 multiplexer interleaves the outputs of the four sub-DACs (R95). -/
def interleave (xs : List (List Int)) : List Int := (List.range 128).map fun q => (xs.getD (q % 4) []).getD (q / 4) 0
/-- Vswing of a swing code, in units of mVppd / 63 (R96). -/
def vswing (swing : Nat) : Int := (18900 + 600 * swing : Nat)
/-- The differential output of a DAC code, in units of mV / 16,002: (u + 0.5) Vswing / 127 (R96). -/
def vdiff (swing : Nat) (u : Int) : Int := (2 * u + 1) * vswing swing

/-- The output of a line lane (R105 to R108, Table 3-7). -/
def State.lineOut (s : State) (n : Nat) : LineOut :=
  if !s.outputsOn then .highZ
  else if s.rd (LTX.STATE n) = 2 ∧ !(s.txL n).gated then
    let volts := fun (codes : List Int) => codes.map fun u =>
      if s.rd (LTX.OUT_POL n) = 1 then -(vdiff (s.rd (LTX.SWING n)) u) else vdiff (s.rd (LTX.SWING n)) u
    .driven (interleave ((List.range 4).map fun k => volts (subDac (s.txL n).dac k)))
  else .idle

end Sys2Proof.Machine
end

