-- ==== Sys2Proof/Machine/Recipe.lean ====
section
/-!
DEFINITION. The factory recipes: what they take from capture packets, the sets they compute and the publishes they issue
(R60, R225, R272, R278 to R282, R285, R372, Table 9-6). DESIGN CHOICE: the factory code of a slot does its work in one step
as the slot starts; what it stores and computes is kept beside the data memory (log 186).
-/

namespace Sys2Proof.Machine

/-! ### Limits, captures, publishes -/

/-- The slices in service, by logical phase. -/
def State.servingSlices (s : State) (n : Nat) : List Nat := (List.range 64).map fun p => s.rd (LRX.SLICE_MAP n p)
/-- Change the recipe state of a line lane. -/
def State.modRecipe (s : State) (n : Nat) (f : LineRecipe → LineRecipe) : State := s.modRx n fun r => { r with recipe := f r.recipe }
/-- Does slice tracking hold every in-service slice within Table 9-4 (R277, R288)? Not before a measurement. -/
def State.slicesNear (s : State) (n : Nat) : Bool :=
  let r := s.rxL n
  let m := r.recipe.meas
  let p := peersOf ((s.servingSlices n).map (measOf m))
  !m.isEmpty && (s.servingSlices n).all fun i => p.near (measOf m i) (sliceFit (r.slices.getD i 0))

/-- A word of LIMITS for a lane: CTLE_MIN, CTLE_MAX, VGA_MIN, VGA_MAX, FFE_MU_ACQ, FFE_MU_TRK (Table 9-11, log 186). -/
def Bundle.limit (b : Bundle) (n i : Nat) : Nat :=
  match b.sect 2 n with
  | some ws => ws.getD i 0
  | none => (Config.limit i).toNat
/-- The lane's bit of SHP_REFINE (Table 9-12). -/
def Bundle.shpRefine (b : Bundle) (n : Nat) : Bool := (b.laneParam n 9 0).testBit n

/-- Signed items of `w` bits of a packet, in order (R84). -/
def CapBank.items (b : CapBank) (w : Nat) : List Int :=
  b.words.flatMap fun x => (List.range (128 / w)).map fun i => sgn w (x.1.toNat / 2 ^ (w * i))
/-- Is a packet free of TRUNC and POISON (R219, R278)? -/
def CapBank.clean (b : CapBank) : Bool := !b.trunc && b.words.all fun x => !x.2.getLsbD 14

/-- The capture a factory recipe waits for: packet `pkt` of a cluster, where it has come, with the bank it is in. -/
def CapFifo.packet (f : CapFifo) (pkt : Nat) : Option (Nat × CapBank) :=
  if f.a.full ∧ f.a.pkt = pkt then some (0, f.a) else if f.b.full ∧ f.b.pkt = pkt then some (1, f.b) else none
/-- Is a packet still to come? -/
def CapFifo.awaits (f : CapFifo) (pkt : Nat) : Bool := f.queued.isSome || f.filling.isSome || (f.packet pkt).isSome
/-- A recipe's own capture request: 64 words at once (log 186); the number of its packet. -/
def State.recipeAsk (s : State) (c point : Nat) : State × Nat :=
  let pkt := ((s.fifo c).pkt + 1) % 256
  (s.modFifo c fun f => { f with queued := some { point := point, count := 64, dec := 0, start := none, after := 0 } }, pkt)

/-- Words into the working buffer of a kind, and the publish of them, at a core cycle of the tick (R221 to R223). Nothing
where the kind is granted to user code (R225), or its buffer is still locked by the last one (R223). -/
def State.recipePub (s : State) (d kind tgt idx cycle : Nat) (words : List Nat) : Bool × State :=
  if s.granted d tgt kind || (s.findPub kind tgt).isSome || (decide (kind ≠ 7) && (s.findSwapped kind tgt).isSome) then (false, s)
  else
    let s := s.modJn d fun j => { j with dm := dmPutHalves j.dm (pubBuffer kind tgt).1 words }
    let o := s.issuePub d kind tgt idx cycle
    (decide (o.1 = 0), if o.1 = 0 then o.2.countEv d 0x09 1 else o.2)

/-- Have `k` ticks passed since the last swap of a kind and since the recipe last tried it (Table 9-6)? -/
def State.recipeDue (s : State) (n kind k : Nat) : Bool :=
  s.swapFree kind n (s.nowL n) k && (s.rxL n).recipe.tried.all fun x => decide (x.1 ≠ kind) || s.passed (dieOfLine n) x.2 k
/-- Note an attempt at a kind. -/
def State.recipeTry (s : State) (n kind : Nat) : State :=
  s.modRecipe n fun r => { r with tried := (kind, s.nowL n) :: r.tried.filter fun x => decide (x.1 ≠ kind) }

/-! ### Statistics -/

/-- The context, z′ and final decision of symbol `q` of a captured run of z, as the data path has them but with the master
copy for the table (R281). -/
def State.recipeSym (s : State) (n : Nat) (z : List Int) (v : List Nat) (q : Nat) : Nat × Int × Nat :=
  let c := contextIndex (List.replicate 128 0 ++ v) q
  let on := decide (s.rd (LRX.CTX_EN n) = 1) && !s.bit (CTX.FLAGS n) 0
  let k := contextCorr on (s.rd (LRX.CTX_CLASS_CEIL n)) (some (s.masterEntry 1 n c))
  let z' := sat 12 (z.getD q 0 + k.1)
  (c, z', finalSlice (s.rxL n).llr z')
/-- The symbols of a run that have a full context, with their positions: not three at the start, nor two at the end. -/
def State.recipeSyms (s : State) (n : Nat) (z : List Int) : List (Nat × Nat × Int × Nat) :=
  let v := z.map firstPass
  (List.range (z.length - 5)).map fun i => (i + 3, s.recipeSym n z v (i + 3))

/-- Add one observation of a context. -/
def ctxAdd (c v : Nat) (z : Int) : List CtxSums → List CtxSums
  | [] => [⟨c, 1, z - nominal v, z, z.natAbs ^ 2⟩]
  | x :: xs =>
    if x.context = c then ⟨c, x.count + 1, x.err + (z - nominal v), x.sum + z, x.square + z.natAbs ^ 2⟩ :: xs
    else x :: ctxAdd c v z xs

/-- One least-mean-squares step: every tap moves by 2^-mu of the error times the sample it weights, in 24 bits (R280).
DESIGN CHOICE: that sample is z, the one point captured (log 186). -/
def lmsStep (mu main count : Nat) (z : List Int) (taps : List Int) (q : Nat) (e : Int) : List Int :=
  (List.range 33).map fun k =>
    let x := if k ≤ q + main then z.getD (q + main - k) 0 else 0
    if k < count then sat 24 (taps.getD k 0 - asr (e * x) mu) else 0

/-- The recipe's taps: those of 24 bits while they round to the taps in service, else the taps in service. -/
def State.fullTaps (s : State) (n : Nat) : List Int :=
  (List.range 33).map fun k =>
    let t := (s.rxL n).recipe.taps.getD k 0
    let c := s.rdS (LRX.FFE_COEF n k)
    if roundDiv t (2 ^ 14) = c then t else c * 2 ^ 14

/-- A packet of point FFE: the blind or the decision-directed error moves the taps, and the levels and contexts are counted
(R280, R281). -/
def State.intakeFfe (s : State) (n : Nat) (z : List Int) : State :=
  let locked := decide (s.rd (FEC.FRAME_STATE n) = 2)
  let b := s.sys.bundle
  let mu := b.limit n (if s.rd (LRX.STATE n) = 3 then 5 else 4)
  let syms := s.recipeSyms n z
  let errs : List (Nat × Int) := if locked then syms.map fun x => (x.1, x.2.2.1 - nominal x.2.2.2)
    else (List.range z.length).map fun q => let u := z.getD q 0; (q, u * (u * u - 134349))
  let step := lmsStep mu (s.rd (LRX.FFE_MAIN n)) (s.rd (LRX.FFE_TAPS n)) z
  let taps := errs.foldl (fun t x => step t x.1 x.2) (s.fullTaps n)
  let dec : List (Nat × Int) := if locked then syms.map fun x => (x.2.2.2, z.getD x.1 0) else z.map fun u => (firstPass u, u)
  s.modRecipe n fun r => { r with
    taps := taps
    levels := dec.foldl (fun l x => modNth (0, 0) l x.1 fun p => (p.1 + 1, p.2 + x.2)) r.levels
    ctx := if locked then syms.foldl (fun l x => ctxAdd x.2.1 x.2.2.2 x.2.2.1 l) r.ctx else r.ctx }

/-- A packet of point CORR: the outer levels are the samples of 32 LSB or more (R279, log 186). -/
def State.intakeCorr (s : State) (n : Nat) (y : List Int) : State :=
  let outer := y.filter fun u => decide (128 ≤ u.natAbs)
  s.modRecipe n fun r => { r with outer := (r.outer.1 + outer.length, r.outer.2 + (outer.map Int.natAbs).sum) }

/-- Add a sample of a slice with its asymmetry. -/
def sliceAdd (l : List SliceSums) (i : Nat) (x asym : Int) : List SliceSums :=
  modNth ⟨0, 0, 0, 0⟩ l i fun t => ⟨t.count + 1, t.sum + x, t.square + x.natAbs ^ 2, t.asym + asym⟩
/-- A packet of point RAW: every sample belongs to the slice of its phase, between two neighbours (R272). -/
def State.intakeRaw (s : State) (n : Nat) (x : List Int) : State :=
  let l := (List.range (x.length - 2)).foldl (fun l i =>
    sliceAdd l (s.rd (LRX.SLICE_MAP n ((i + 1) % 64))) (x.getD (i + 1) 0) (x.getD (i + 1) 0 * (x.getD (i + 2) 0 - x.getD i 0)))
    (s.rxL n).recipe.slices
  s.modRecipe n fun r => { r with slices := l }
/-- A packet of point SHADOW: pairs of a spare's sample and the one in service; the asymmetry of a spare is that of its
pair (log 186). -/
def State.intakeShadow (s : State) (n : Nat) (x : List Int) : State :=
  let sp := s.spareSlices n
  let l := (List.range (x.length / 2)).foldl (fun l i =>
    match sp[if sp.length = 1 then 0 else i % 2]? with
    | some k => sliceAdd l k (x.getD (2 * i) 0) (x.getD (2 * i) 0 * x.getD (2 * i + 1) 0)
    | none => l) (s.rxL n).recipe.slices
  s.modRecipe n fun r => { r with slices := l }

/-- The points the recipes of a lane capture, in turn (Table 9-6). -/
def recipePoint (track : Bool) (turn : Nat) : Nat :=
  if track then [3, 0, 3, 1].getD (turn % 4) 3 else [3, 2].getD (turn % 2) 3

/-- Capture intake of a line lane (Tables 7-6 and 9-6): the packet waited for is used and released, and the next is asked
for in ACQUIRE and TRACK. -/
def State.lineIntake (s : State) (n : Nat) : State :=
  let f := s.fifo n
  let s := match (s.rxL n).recipe.own.bind f.packet with
    | some (i, b) =>
      let s := if !b.clean then s else match b.point with
        | 0 => s.intakeRaw n (b.items 8)
        | 1 => s.intakeShadow n (b.items 8)
        | 2 => s.intakeCorr n (b.items 16)
        | 3 => s.intakeFfe n (b.items 16)
        | _ => s
      (s.modFifo n fun f => f.modBank i fun _ => .reset).modRecipe n fun r => { r with own := none }
    | none => s
  let st := s.rd (LRX.STATE n)
  let r := (s.rxL n).recipe
  let f := s.fifo n
  if (st = 2 ∨ st = 3) ∧ !(f.queued.isSome || f.filling.isSome) ∧ r.own.all fun p => !f.awaits p then
    let x := s.recipeAsk n (recipePoint (decide (st = 3)) r.turn)
    x.1.modRecipe n fun r => { r with own := some x.2, turn := r.turn + 1 }
  else s

/-! ### AFE (R279) -/

/-- Publish CTLE_PEAK and VGA_GAIN. -/
def State.afePub (s : State) (d n cycle ctle vga : Nat) : Bool × State := s.recipePub d 4 n 0 cycle [ctle, vga]

/-- The VGA move of an opportunity: down after a CLIP, else towards 44 to 52 LSB, within VGA_MIN to VGA_MAX. -/
def State.vgaWant (s : State) (n : Nat) : Nat :=
  let r := (s.rxL n).recipe
  let g := s.rd (LRX.VGA_GAIN n)
  let down := if s.sys.bundle.limit n 2 < g then g - 1 else g
  let up := if g < s.sys.bundle.limit n 3 then g + 1 else g
  if r.clipped then down
  else if r.outer.1 = 0 then g
  else if r.outer.2 < 176 * r.outer.1 then up
  else if 208 * r.outer.1 < r.outer.2 then down
  else g
/-- The VGA recipe in ACQUIRE. -/
def State.vgaRun (s : State) (d n cycle : Nat) : State :=
  let g := s.vgaWant n
  if s.rd (LRX.STATE n) ≠ 2 ∨ !s.recipeDue n 4 64 ∨ g = s.rd (LRX.VGA_GAIN n) then s
  else
    let o := (s.recipeTry n 4).afePub d n cycle (s.rd (LRX.CTLE_PEAK n)) g
    if o.1 then o.2.modRecipe n fun r => { r with outer := (0, 0), clipped := false } else o.2

/-- The CTLE trial at a window end: a trial of the ended window is judged by 0.1 dB, then one window rests; otherwise a
trial begins. DESIGN CHOICE: upwards until a trial fails or the range ends, then downwards (log 186). -/
def State.ctleRun (s : State) (d n : Nat) (snr : Int) : State :=
  let r := (s.rxL n).recipe
  let now := s.rd (LRX.CTLE_PEAK n)
  let lo := s.sys.bundle.limit n 0
  let hi := s.sys.bundle.limit n 1
  if s.rd (LRX.STATE n) ≠ 3 then s.modRecipe n fun r => { r with trial := none, rest := false }
  else match r.trial with
    | some (old, before) =>
      let s := s.modRecipe n fun r => { r with trial := none }
      if before + 26 ≤ snr then s
      else (s.afePub d n 0 old (s.rd (LRX.VGA_GAIN n))).2.modRecipe n fun r => { r with rest := true, down := !r.down }
    | none =>
      let down := if now ≤ lo then false else if hi ≤ now then true else r.down
      let want := if down then now - 1 else now + 1
      if r.rest then s.modRecipe n fun r => { r with rest := false }
      else if want < lo ∨ hi < want then s
      else
        let o := s.afePub d n 0 want (s.rd (LRX.VGA_GAIN n))
        if o.1 then o.2.modRecipe n fun r => { r with trial := some (now, snr), down := down } else o.2

/-! ### FFE (R60, R280, R372) -/

/-- The taps scaled so that the mean spacing of the levels of z is 256 (R280). -/
def scaleTaps (levels : List (Nat × Int)) (taps : List Int) : List Int :=
  let a := levels.getD 0 (0, 0)
  let b := levels.getD 3 (0, 0)
  let spread : Int := b.2 * a.1 - a.2 * b.1
  if a.1 = 0 ∨ b.1 = 0 ∨ spread ≤ 0 then taps else taps.map fun t => sat 24 (roundDiv (t * 768 * a.1 * b.1) spread)

/-- The set for a tap count: rounded to 10 bits, within 2 codes of the taps in service in TRACK, declaring the count. -/
def State.ffeBuild (s : State) (n count : Nat) : List Nat :=
  let taps := scaleTaps (s.rxL n).recipe.levels (s.fullTaps n)
  ((List.range 33).map fun k =>
    let old := s.rdS (LRX.FFE_COEF n k)
    let t := sat 10 (roundDiv (taps.getD k 0) (2 ^ 14))
    let t := if s.rd (LRX.STATE n) = 3 ∧ count = s.rd (LRX.FFE_TAPS n) then near 2 old t else t
    if k < count then enc 10 t else 0) ++ [count]

/-- The FFE recipe: every 4 ticks in ACQUIRE and every 64 in TRACK, and at once for the tap count of a throttle step
(R372). -/
def State.ffeRun (s : State) (d n cycle : Nat) : State :=
  let st := s.rd (LRX.STATE n)
  let count := s.tapsUnder n (s.nextLevel (regionOfLine n))
  let resize := decide (count ≠ s.rd (LRX.FFE_TAPS n)) && s.recipeDue n 3 4
  if (s.rxL n).consOwed then s
  else if resize || (decide (st = 2 ∨ st = 3) && decide (((s.rxL n).recipe.levels.map (·.1)).sum ≠ 0) &&
      s.recipeDue n 3 (if st = 3 then 64 else 4)) then
    let words := s.ffeBuild n count
    let taps := scaleTaps (s.rxL n).recipe.levels (s.fullTaps n)
    let o := (s.recipeTry n 3).recipePub d 3 n 0 cycle words
    if o.1 then o.2.modRecipe n fun r => { r with taps := taps, levels := LineRecipe.reset.levels } else o.2
  else s

/-! ### Context and shaping sets (R281) -/

/-- The new entry of a context with its observations: 64 or more, or the entry stays; within ±64 units in TRACK. -/
def ctxBuild (track : Bool) (x : CtxSums) (old : Nat) : Nat :=
  if x.count < 64 then old
  else
    let was := sgn 12 (bits old 15 4)
    let corr := max (-2048) (min 2047 (was - roundDiv x.err x.count))
    let v := ((x.count : Int) * x.square - x.sum * x.sum).toNat
    let cls := 15 - bisect (fun k => decide ((8 * k) ^ 2 * x.count ^ 2 ≤ v)) 5 0
    enc 12 (if track then near 64 was corr else corr) * 16 + max 1 (min 15 cls)

/-- Words with the built entries of the contexts observed. -/
def ctxWords (track : Bool) (xs : List CtxSums) (words : List Nat) : List Nat :=
  xs.foldl (fun w x => modNth 0 w x.context (ctxBuild track x)) words

/-- The context recipe: every 64 ticks in ACQUIRE with the framer locked, every 1,024 in TRACK. -/
def State.ctxRun (s : State) (d n cycle : Nat) : State :=
  let st := s.rd (LRX.STATE n)
  let go := decide (st = 3 ∨ (st = 2 ∧ s.rd (FEC.FRAME_STATE n) = 2))
  let xs := (s.rxL n).recipe.ctx
  if go && s.recipeDue n 1 (if st = 3 then 1024 else 64) && xs.any fun x => decide (64 ≤ x.count) then
    let old := (List.range 4096).map fun c => s.masterEntry 1 n c
    let o := (s.recipeTry n 1).recipePub d 1 n 0 cycle (ctxWords (decide (st = 3)) xs old)
    if o.1 then o.2.modRecipe n fun r => { r with ctx := [] } else o.2
  else s

/-- The shaping recipe, where SHP_REFINE enables it: every 4,096 ticks in ACTIVE; each correction moves by at most 4 units,
by how many is not stated (log 2). -/
def State.shpRun (s : State) (d n cycle : Nat) : State :=
  if s.rd (LTX.STATE n) = 2 ∧ s.sys.bundle.shpRefine n ∧ s.recipeDue n 2 4096 then
    let words := (List.range 1024).map fun a =>
      let e := s.masterEntry 2 n a
      let move : Int := ((Config.freeValue (s.free + a)).toNat % 9 : Nat) - 4
      enc 12 (sat 12 (sgn 12 (bits e 15 4) + move)) * 16 + e % 16
    ({ s with free := s.free + 1024 }.recipeTry n 2).recipePub d 2 n 0 cycle words |>.2
  else s

/-! ### Slice words and sub-DAC trims -/

/-- Fields moved by at most one code towards those wanted (Table 9-6). -/
def Fit.toward (now want : Fit) : Fit :=
  ⟨oneStep now.offset want.offset, oneStep now.gain want.gain, oneStep now.skew want.skew⟩

/-- The slice measurement of the tracking sums, with the SKEW in use taken out; none before every slice has 64 samples
(R272). -/
def State.sliceMeasure (s : State) (n : Nat) : Option (List SliceMeas) :=
  let r := s.rxL n
  let live := s.servingSlices n ++ s.spareSlices n
  if live.all fun i => decide (64 ≤ (r.recipe.slices.getD i ⟨0, 0, 0, 0⟩).count) then
    some ((List.range 66).map fun i =>
      let t := r.recipe.slices.getD i ⟨0, 0, 0, 0⟩
      let c : Int := max 1 t.count
      { mean := t.sum * 2 ^ 20 / c, plus := 0, minus := 0, square := t.square * 2 ^ 20 / max 1 t.count
        late := Config.lateOf (t.asym * 2 ^ 20 / c) - 20 * (sliceFit (r.slices.getD i 0)).skew })
  else none

/-- The slice words one step on towards those the measurement asks for, in service and spare. -/
def State.sliceWords (s : State) (n : Nat) : List Nat :=
  let r := s.rxL n
  let p := peersOf ((s.servingSlices n).map (measOf r.recipe.meas))
  let live := s.servingSlices n ++ s.spareSlices n
  (List.range 66).map fun i =>
    let w := r.slices.getD i 0
    let f := (sliceFit w).toward (p.fit (measOf r.recipe.meas i))
    if live.contains i ∧ f.sliceOk then f.sliceWord else w

/-- Slice tracking in TRACK (R272, R277): a new measurement where there is one, and a publish every 256 ticks while words
differ. -/
def State.sliceRun (s : State) (d n cycle : Nat) : State :=
  if s.rd (LRX.STATE n) ≠ 3 ∨ !s.recipeDue n 5 256 then s
  else
    let s := match s.sliceMeasure n with
      | some m => s.modRecipe n fun r => { r with meas := m, slices := LineRecipe.reset.slices }
      | none => s
    let w := s.sliceWords n
    if (s.rxL n).recipe.meas = [] ∨ w = (s.rxL n).slices then s
    else ((s.recipeTry n 5).recipePub d 5 n 0 cycle (w.flatMap fun x => [x % 65536, x / 65536])).2

/-- Sub-DAC tracking: what a DACTRIM opportunity has shown is followed by at most one publish, one code per field. -/
def State.trimRun (s : State) (d n cycle : Nat) : State :=
  let t := s.txL n
  let now := s.rdList (LTX.SUBDAC_TRIM n 0) 4
  let want := (now.zip (trimFits t.meas)).map fun x => ((trimFit x.1).toward x.2).trimWord
  if t.meas = [] ∨ !(s.rd (LTX.STATE n) = 2 ∨ s.rd (LTX.STATE n) = 3) ∨ !s.recipeDue n 6 4096 then s
  else
    let s := s.modTx n fun t => { t with meas := [] }
    if want = now then s
    else ((s.recipeTry n 6).recipePub d 6 n 0 cycle (want.flatMap fun x => [x % 65536, x / 65536])).2

/-! ### Conservative sets (R282, R285) -/

/-- The conservative index of a lane's LLR sets in section 0x07 (R282). -/
def Bundle.llrCons (b : Bundle) (n : Nat) : Nat :=
  match b.sect 7 n with
  | none => 0
  | some ws => ws.getD (229 * (ws.length / 229) - 1) 0

/-- Put an LLR set in service by a publish; the index chosen follows (R282). -/
def State.llrPub (s : State) (d n idx cycle : Nat) : Bool × State :=
  let o := s.recipePub d 7 n idx cycle []
  (o.1, if o.1 then o.2.wr (OBS.LLR_IDX n) idx else o.2)
/-- The conservative LLR set, where it is owed and is not the one in service. -/
def State.consLlr (s : State) (d n cycle : Nat) : State :=
  let idx := s.sys.bundle.llrCons n
  let r := s.rxL n
  let done := fun (s : State) => s.modRecipe n fun r => { r with llrOwed := false }
  if !r.recipe.llrOwed then s
  else if s.rd (OBS.LLR_IDX n) = idx ∧ s.sys.bundle.llrSet n idx = some r.llr then done s
  else
    let o := s.llrPub d n idx cycle
    if o.1 then done o.2 else o.2
/-- The conservative FFE set of the tap count, where it is owed: the bundle's, else the flat set (log 15). -/
def State.consFfe (s : State) (d n cycle : Nat) : State :=
  let count := s.rd (LRX.FFE_TAPS n)
  if !(s.rxL n).consOwed then s
  else
    let taps := match s.sys.bundle.ffeSet 6 n count with
      | some ws => (ws.drop 2).map (· % 1024)
      | none => (List.range 33).map fun k => if k = 6 then 128 else 0
    (s.recipePub d 3 n 0 cycle (((List.range 33).map fun k => taps.getD k 0) ++ [count])).2

/-! ### The slots of Table 7-6 -/

/-- The work of a factory LINE slot: what is owed after a relink first; in the first slot of a lane intake, gain and FFE,
in the second the sets. -/
def State.lineSlot (s : State) (d n entry cycle : Nat) : State :=
  let st := s.rd (LRX.STATE n)
  let s := if st = 2 ∨ st = 3 then (s.consLlr d n cycle).consFfe d n cycle else s
  if entry = 0x10 then ((s.lineIntake n).vgaRun d n cycle).ffeRun d n cycle
  else if entry = 0x11 then (((s.ctxRun d n cycle).shpRun d n cycle).sliceRun d n cycle).trimRun d n cycle
  else s

/-- The equaliser set a host recipe publishes: R278 gives the limit of ±1 code per FFE tap in DATA, and no rule for the
values, which are free (log 2). -/
def State.heqBuild (s : State) (k : Nat) : List Nat :=
  let free := fun (i : Nat) => (Config.freeValue (s.free + i)).toNat
  let data := decide (s.rd (HRX.STATE k) = 4)
  [(s.hostL k).eqSetId, free 0 % 31] ++
    ((List.range 12).map fun i =>
      if data then enc 8 (sat 8 (s.rdS (HRX.FFE_COEF k i) + ((free (1 + i) % 3 : Nat) - 1))) else free (1 + i) % 256) ++ [free 13 % 256]

/-- The work of a factory HOST slot on one lane: intake of points 1 and 2, and an equaliser publish every 4 ticks in CHECK,
every 64 in DATA. -/
def State.hostSlot (s : State) (d k cycle : Nat) : State :=
  let st := s.rd (HRX.STATE k)
  let s := match (s.hostL k).recOwn.bind (s.fifo (8 + k)).packet with
    | some (i, b) => (s.modFifo (8 + k) fun f => f.modBank i fun _ => .reset).modHost k fun h =>
        { h with recOwn := none, recGot := h.recGot || b.clean }
    | none => s
  if st ≠ 3 ∧ st ≠ 4 then s
  else
    let f := s.fifo (8 + k)
    let s := if !(f.queued.isSome || f.filling.isSome) ∧ (s.hostL k).recOwn.all fun p => !f.awaits p then
        (let x := s.recipeAsk (8 + k) (1 + s.rd (HRX.STATE k) % 2); x.1.modHost k fun h => { h with recOwn := some x.2 })
      else s
    let gap := if st = 3 then 4 else 64
    let h := s.hostL k
    if h.recGot ∧ s.swapFree 8 (16 + k) (s.nowH k) gap ∧ h.recTried.all fun t => s.passed (dieOfHost k) t gap then
      let words := s.heqBuild k
      let s := { s with free := s.free + 14 }.modHost k fun h => { h with recTried := some (s.nowH k) }
      let o := s.recipePub d 8 (16 + k) 0 cycle words
      if o.1 then o.2.modHost k fun h => { h with recGot := false } else o.2
    else s

/-- What the factory code of a slot does as the slot starts (Table 7-6): the recipes of its lane or of its region's host
lanes. -/
def State.factoryWork (s : State) (d k : Nat) : State :=
  let w := s.rd (JNR.SCHED d k)
  let t := slotTarget w
  match slotKind w with
  | 2 => s.lineSlot d t (slotEntry w) (64 * k)
  | 3 => if slotEntry w = 0x20 then (List.range 4).foldl (fun s i => s.hostSlot d (4 * t + i) (64 * k)) s else s
  | _ => s

end Sys2Proof.Machine
end

