-- ==== Sys2Proof/Machine/JoinerSched.lean ====
section
/-!
DEFINITION. The tick schedule of the Joiner, overruns, interrupts, capture FIFO packets, restart and failure (R39, R206
to R219, R229, R234, R261).
-/

namespace Sys2Proof.Machine

/-! ### Rebuilding master copies (R39) -/

/-- Read an address of the active bank through two in-service replicas (R39, R133). -/
def State.goodEntry (s : State) (n : Nat) (t : Tbl) (addr : Nat) : Option Nat :=
  let b := s.actBank n t
  match s.readRepl n t b (s.physRepl n t 0) addr with
  | .clean v | .corrected v => some v
  | .bad => match s.readRepl n t b (s.physRepl n t 1) addr with
    | .clean v | .corrected v => some v
    | .bad => none

/-- Rebuild a master copy from the active banks (R39), with the stamps of the active set; entries of which no good value
is found make it bad (R133). -/
def State.rebuildMaster (s : State) (d n : Nat) (t : Tbl) : State :=
  let vs := (List.range t.size).map fun a => s.goodEntry n t a
  let bad := (List.range t.size).filter fun a => vs.getD a none = none
  let st := (s.tbl n t).active
  let s := s.writeMaster d t.kind n (vs.map fun v => v.getD 0) st.setId st.epoch st.temp (s.cfgGen (s.domOfDie (dieOfLine n)))
  (s.modTbl n t fun m => { m with masterBad := bad }).closeWindow n t

/-- Every master copy of the lanes a Joiner serves, as (kind, target). -/
def State.masters (s : State) (d : Nat) : List (Nat × Nat) :=
  ((List.range 8).filter fun n => decide (s.servJ (dieOfLine n) = d)).flatMap (fun n => [1, 2, 3, 4, 5, 6].map fun k => (k, n)) ++
  ((List.range 16).filter fun k => decide (s.servJ (dieOfHost k) = d)).map fun k => (8, 16 + k)
/-- Rebuild one master copy from what is in service (R39). -/
def State.rebuildOne (s : State) (d : Nat) (x : Nat × Nat) : State :=
  match tblOfKind x.1 with
  | some t => s.rebuildMaster d x.2 t
  | none => s.rebuildSmall d x.2 x.1
/-- The master copies owed are rebuilt, and MASTER_REBUILD clears (R229). DESIGN CHOICE: the next MAINT slot makes them all
(log 75). -/
def State.rebuildOwed (s : State) (d : Nat) : State :=
  let s := (s.jn d).rebuild.foldl (fun s x => s.rebuildOne d x) s
  (s.modJn d fun j => { j with rebuild := [] }).wrBit (JNR.FLAGS d) 3 false

/-! ### Slots -/

/-- Does a slot word name this die or region of the package as its target? Die and region of the target; none for kinds
without one (Table 7-4). -/
def slotDie (w : Nat) : Option (Nat × Nat) :=
  let t := slotTarget w
  match slotKind w with
  | 2 => some (dieOfLine t, regionOfLine t)
  | 3 => some (if t < 2 then 0 else 1, t)
  | 6 => some (if t < 8 then (dieOfLine t, regionOfLine t) else (dieOfHost (t - 16), regionOfHost (t - 16)))
  | _ => none

/-- Does a slot hold back while master copies are rebuilt: one of a lane, until those of its lane are complete (R39)? -/
def State.rebuilding (s : State) (d w : Nat) : Bool :=
  let t := slotTarget w
  (s.jn d).rebuild.any fun x => match slotKind w with
    | 2 | 6 => decide (x.2 = t)
    | 3 => decide (16 ≤ x.2 ∧ regionOfHost (x.2 - 16) = t)
    | _ => false

/-- Is the slot due in this tick (R207 to R209, R213)? -/
def State.slotDue (s : State) (d k : Nat) : Bool :=
  let w := s.rd (JNR.SCHED d k)
  let kind := slotKind w
  decide (kind ≠ 0 ∧ kind ≠ 7 ∧ s.now d % 2 ^ slotDiv w = slotPhase w) &&
  !((s.jn d).slots.getD k .reset).reverted && !(s.sys.lanesIdle && decide (kind = 2 ∨ kind = 3 ∨ kind = 6)) &&
  !s.rebuilding d w &&
  match slotDie w with
  | none => true
  | some (_, r) => decide (s.now d % 2 ^ s.rd (JNR.RG_DUTY d r) = 0)
/-- Is the slot's target on a die this Joiner serves but cannot reach (R210)? -/
def State.tgtGone (s : State) (d w : Nat) : Bool :=
  match slotDie w with
  | none => false
  | some (die, _) => s.sys.bridgeLost && decide (die ≠ d ∧ s.servJ die = d)
/-- Does the slot run in this tick: due, with a target the Joiner serves and reaches (R208, R210)? -/
def State.slotRuns (s : State) (d k : Nat) : Bool :=
  s.slotDue d k && match slotDie (s.rd (JNR.SCHED d k)) with
  | none => s.reaches d 0 || s.reaches d 1
  | some (die, _) => s.reaches d die

/-- TGT_STATE of Table 7-5. -/
def State.tgtState (s : State) (w : Nat) : Nat :=
  let t := slotTarget w
  match slotKind w with
  | 2 => s.rd (LRX.STATE t)
  | 6 => if t < 8 then s.rd (LRX.STATE t) else s.rd (HRX.STATE (t - 16))
  | _ => 0

/-- The slot entry word (Table 7-5). -/
def State.entryWord (s : State) (d k : Nat) : Word :=
  let w := s.rd (JNR.SCHED d k)
  let b := (s.jn d).slots.getD k .reset
  BitVec.ofNat 32 ((b.first || b.changed).toNat * 2 ^ 31 + b.latePrev.toNat * 2 ^ 30 + b.dmErr.toNat * 2 ^ 29 +
    (s.tgtGone d w).toNat * 2 ^ 28 + s.tgtState w % 8 * 2 ^ 25 + s.now d % 2 ^ 25)

/-- Cycles of slot `k` (R206). -/
def State.slotCycles (s : State) (k : Nat) : Nat := if k = 31 then ((64 : Int) + s.tickAdj).toNat else 64

/-- Count events of a slot that runs no code. -/
def State.idleSlot (s : State) (d k : Nat) : State :=
  (List.range 8).foldl (fun s c => if s.counterOn d c 0x01 (some k) then s.bumpCounter d c (s.slotCycles k) else s) s

/-- A slot not ended by its YIELD in time is cut off (R212, R213). -/
def State.cutOff (s : State) (d : Nat) : State :=
  let s := s.yieldEnd d
  match (s.jn d).slot with
  | none => s
  | some k =>
    let w := s.rd (JNR.SCHED d k)
    let last := (s.jn d).slotLen - 1
    let s := s.landDue State.sysEff d last
    match (s.jn d).slot, (s.jn d).badBranch with
    | none, _ => s
    | some _, some t => s.branchFault d t
    | some _, none =>
      let s := s.countEv d 0x08 1
      let s := s.modSlot d k fun b => { b with lateNow := true }
      let s := (s.leaveSlot d last).userOverrun d k
      let b := (s.jn d).slots.getD k .reset
      let s := if slotKind w ≠ 6 ∧ b.loggedAt.all (fun t => decide (1024 ≤ s.since d t)) then
          (s.modSlot d k fun b => { b with loggedAt := some (s.now d) }).logEv
            { level := 3, die1 := decide (d = 1), inst := d, code := 0x3005, detail := k }
        else s
      if slotKind w = 1 ∧ b.overruns ≥ 16 then s.modJn d fun j => { j with fault := true } else s

/-- SLOT_CUTOFF (R212): a slot running at its end. -/
def execSlotCutoff (d : Die) (s : State) : Result := finish s <| .next (s.cutOff d.val)

/-- The entry word and the target that the code of a slot finds in S0 and S1 (R210, R234). -/
def State.present (s : State) (d k : Nat) : State :=
  let e := s.entryWord d k
  let w := s.rd (JNR.SCHED d k)
  s.modJn d fun j => { j with s := setNth 0 (setNth 0 j.s 0 e) 1 (BitVec.ofNat 32 (slotTarget w)) }

/-- SLOT_START (R210, R234): the slot before ends; the slot runs, or is idle. A slot whose target is out of reach is
presented its entry word and skipped. -/
def execSlotStart (d : Die) (k : Fin 32) (s : State) : Result := finish s <|
  let s := s.cutOff d.val
  let st := s.rd (JNR.STATE d.val)
  let w := s.rd (JNR.SCHED d.val k.val)
  if st = 0 then .next s
  else if st ≠ 2 ∨ (s.jn d.val).fault then .next (s.idleSlot d.val k.val)
  else if s.slotDue d.val k.val ∧ s.tgtGone d.val w then .next ((s.present d.val k.val).idleSlot d.val k.val)
  else if !s.slotRuns d.val k.val then .next (s.idleSlot d.val k.val)
  else
    let e := s.entryWord d.val k.val
    let len := s.slotCycles k.val
    let s := s.modJn d.val fun j =>
      let j := if slotKind w = 6 then j.clearRegs else j
      { j with
        slot := some k.val, slotLen := len, cycle := 1, pc := spGet 0 j.entry (slotEntry w), slotTick := s.now d.val
        s := setNth 0 (setNth 0 j.s 0 e) 1 (BitVec.ofNat 32 (slotTarget w)), satf := 0, rotofs := 0, rotSmall := false
        lastCap := none
        slots := modNth .reset j.slots k.val fun b => { b with first := false, latePrev := false, dmErr := false, changed := false } }
    let s := (s.countEv d.val 0x01 1).factoryWork d.val k.val
    let s := if slotKind w = 5 then s.rebuildOwed d.val else s
    .next (if slotKind w = 4 ∧ s.servJ 0 = d.val then s.loopsRun else s)

/-- INTERRUPT_TAKEN (R214, R261): at a bundle boundary of a SYS or MAINT slot, outside repeat blocks and delay slots; a
mailbox message that comes at another time stays pending. -/
def execInterruptTaken (d : Die) (mailbox : Bool) (s : State) : Result := finish s <|
  let j := s.jn d.val
  let kind := s.runKind d.val
  let src : Word := j.irqPending ||| (if mailbox then 1 else 0)
  if j.issuing && !j.xDone && j.rep.isNone && decide (j.delay = 0 ∧ src ≠ 0) && j.irqEnabled && decide (kind = 1 ∨ kind = 5) then
    .next ((s.modJn d.val fun j => { j with
      epc := BitVec.ofNat 32 j.pc, icause := src, irqPending := 0, irqEnabled := false
      pc := spGet 0 j.entry 0xBF }).countEv d.val 0x0F 1)
  else .next (s.modJn d.val fun j => { j with irqPending := src })

/-! ### Capture FIFOs -/

/-- Is a cluster in a state in which its FIFO captures (R219)? -/
def State.capturing (s : State) (c : Nat) : Bool :=
  if c < 8 then decide (s.rd (LRX.STATE c) ∈ [1, 2, 3]) else decide (s.rd (HRX.STATE (c - 8)) ∈ [3, 4])

/-- CAPTURE_FILL_START (R216): the queued request takes an EMPTY bank. -/
def execCaptureFillStart (c : Chan) (s : State) : Result := finish s <|
  let f := s.fifo c.val
  match f.queued, f.filling with
  | some r, none =>
    if (f.a.full && f.b.full) || !s.capturing c.val then .next s
    else
      let b := if f.a.full then 1 else 0
      let pkt := (f.pkt + 1) % 256
      .next (s.modFifo c.val fun f =>
        { f.modBank b (fun _ => { CapBank.reset with point := r.point, pkt := pkt }) with
          queued := none, filling := some (b, r), seen := 0, pkt := pkt, part := [] })
  | _, _ => .next s

/-- CAPTURE_PACKET_END (R218): the packet has all its words; `flips` are the memory errors that strike them (R217). -/
def execCapturePacketEnd (c : Chan) (flips : List (BitVec 128)) (s : State) : Result := finish s <|
  let f := s.fifo c.val
  match f.filling with
  | none => .next s
  | some (b, r) =>
    if (f.bank b).words.length = r.count then
      .next ((s.modFifo c.val fun _ => (f.finish false).modBank b fun k => { k with words := struck flips k.words }).bankIrq (if c.val < 8 then dieOfLine c.val else dieOfHost (c.val - 8)))
    else .next s

/-! ### Restart and failure -/

/-- JOINER_FAULT (R229): the Joiner halts for a restart, or for good after three restarts within 1 s; the shadows it was
writing are abandoned (Table 4-11). An error in program memory during a restart makes that restart fail. -/
def execJoinerFault (d : Die) (cause : JoinerCause) (s : State) : Result := finish s <|
  let j := s.jn d.val
  let st := s.rd (JNR.STATE d.val)
  let due := match cause with
    | .exception | .sysOverrun => j.fault
    | .programMemory => true
  if !due ∨ (st ≠ 2 ∧ st ≠ 3) then .next s
  else
    let recent := j.restarts.filter fun t => decide (ticksSince s.tickno t < s.ticksPerSecond)
    let s := s.modJn d.val fun j => { j.cut with restarts := recent ++ [s.tickno] }
    let s := (s.pubs.filter fun p => decide (p.die = d.val ∧ (p.phase = .writing ∨ p.phase = .verifying))).foldl
      (fun s p => s.dropPub p.kind p.tgt pubDisplaced) s
    if recent.length ≥ 3 then
      .next (((s.wr (JNR.STATE d.val) 4).faultOn 1).logEv
        { level := 3, fault := true, die1 := decide (d.val = 1), inst := d.val, code := 0x3002 })
    else .next (s.wr (JNR.STATE d.val) 3)

/-- A Joiner resumes its schedule: publishes that swapped without their master copy being written are rebuilt from the
active banks, all master copies where the data memory is lost (R39). -/
def State.joinerResume (s : State) (d : Nat) (dmLost : Bool) : State :=
  let s := s.modJn d fun j => { j.cut with
    fault := false, irqPending := 0, irqEnabled := true, hold := none
    dm := if dmLost then [] else j.dm
    slots := j.slots.map fun b => { b with first := true, overruns := 0, lateNow := false, latePrev := false } }
  let s := s.wrBit (JNR.FLAGS d) 2 dmLost
  let s := if s.servJ 0 = d then
      s.modSys fun y => { y with bias := y.bias.map fun b => { b with acc := none } }
    else s
  let swapped := s.pubs.filter fun p => decide (p.die = d) && !p.live
  let s := if dmLost then s
    else (swapped.filter fun p => decide (tblOfKind p.kind = none)).foldl (fun s p =>
      s.writeMaster d p.kind p.tgt p.words p.setId p.epoch p.temp p.gen) s
  let owed := if dmLost then s.masters d
    else (s.jn d).rebuild ++ (swapped.filter fun p => decide (tblOfKind p.kind ≠ none)).map fun p => (p.kind, p.tgt)
  let s := (s.modJn d fun j => { j with rebuild := owed }).wrBit (JNR.FLAGS d) 3 (decide (owed ≠ []))
  let s := { s with pubs := s.pubs.filter fun p => decide (p.die ≠ d) || p.live }
  s.wr (JNR.STATE d) 2

/-- JOINER_RESTART_COMPLETE (R229). -/
def execJoinerRestartComplete (d : Die) (dmLost : Bool) (s : State) : Result := finish s <|
  if s.rd (JNR.STATE d.val) ≠ 3 then .next s
  else
    let s := (s.joinerResume d.val dmLost).inc (JNR.RESTART_CNT d.val)
    .next (s.logEv { level := 3, die1 := decide (d.val = 1), inst := d.val, code := 0x3001,
                     detail := s.rd (JNR.RESTART_CNT d.val) })

end Sys2Proof.Machine
end

