-- ==== Sys2Proof/Machine/TableCtl.lean ====
section
/-!
DEFINITION. The table controllers: shadow writes and their verification, publishes, refreshes and repairs, scrubbing,
remaps, master copies (R118, R120, R123 to R136, R221 to R223, R285).
-/

namespace Sys2Proof.Machine

/-! ### Table loads reaching HELD (R308) -/

/-- Die of a table set's instance (Table 10-7). -/
def dieOfLoad (kind inst : Nat) : Nat :=
  if kind = 0x0D then inst else if kind = 0x08 then dieOfHost inst else dieOfLine inst
/-- SET_ID of a loaded set (Table 10-7). -/
def setIdOf (kind : Nat) (words : List Nat) : Nat := if kind = 7 then words.getD 3 0 else words.getD 0 0
/-- The load of this kind and instance that is being written. -/
def State.findLoad (s : State) (kind inst : Nat) : Option Load :=
  s.loads.find? fun l => decide (l.kind = kind ∧ l.inst = inst ∧ l.phase = .writing)
/-- Forget the load of a kind and instance. -/
def State.dropLoad (s : State) (l : Load) : State :=
  { s with loads := s.loads.filter fun x => decide (x ≠ l) }

/-- A load whose shadow is written and verified is HELD: part of its domain's staged image, with its final reply
(R127, R308). -/
def State.loadHeld (s : State) (l : Load) : State :=
  let s := s.dropLoad l
  let d := s.domOfDie (dieOfLoad l.kind l.inst)
  let x : TableSet := ⟨l.kind, l.inst, l.words, l.epoch⟩
  let s := s.modDom d fun m => { m with held := (m.held.filter fun y => decide (¬ (y.kind = l.kind ∧ y.inst = l.inst))) ++ [x] }
  let s := match tblOfKind l.kind with
    | some t => s.setShadow l.inst t 3
    | none => s
  (s.okIf l.ref (le 2 (setIdOf l.kind l.words) ++ [3, 0] ++ le 6 l.epoch)).endOpIf l.ref

/-- A load whose shadow cannot be made COMPLETE (R127). -/
def State.loadFails (s : State) (l : Load) : State := ((s.dropLoad l).refuseIf l.ref .hwFault "VERIFY").endOpIf l.ref

/-! ### Writing -/

/-- The shadow bank of a table. -/
def State.shadowBank (s : State) (n : Nat) (t : Tbl) : Nat := 1 - s.actBank n t

/-- Tracker entries of a bank awaiting its rewrite enter WATCH (Table 4-7). -/
def State.watchBank (s : State) (n : Nat) (t : Tbl) (bank : Nat) : State :=
  (List.range 16).foldl (fun s k =>
    let w := s.rd (CTX.TRACK n k)
    if bits w 31 29 = 5 ∧ bits w 28 28 = t.ix ∧ bits w 27 27 = bank then
      (s.wr (CTX.TRACK n k) (trackWord 2 0 (keyOfTrack w))).setWatch n k (some (s.nowL n))
    else s) s

/-- The spare rows of a table after a broadcast write of `set` into a bank: a redirected address takes its entry in its
spare row (R126, R136). -/
def State.rowsWritten (s : State) (n : Nat) (t : Tbl) (bank : Nat) (set : List (Nat × Nat)) : List (Nat × Nat × Nat × Nat) :=
  ((s.tbl n t).spares.filter fun x => decide (x.1 ≠ bank)) ++
  (List.range 8).filterMap fun k =>
    let w := s.rd (CTX.REMAP n k)
    if bits w 31 30 = 2 + t.ix ∧ bits w 29 29 = bank then
      some (bank, bits w 28 22, bits w 21 20, storeWord (spGet 0 set (bits w 11 0)))
    else none

/-- Soft errors after a broadcast write of `set` into a bank: none where a usable replica or one in service is written,
while a replica out of service keeps what it held (R126). -/
def State.upsetsWritten (s : State) (n : Nat) (t : Tbl) (bank : Nat) (set : List (Nat × Nat)) : List Upset :=
  let m := s.tbl n t
  let reach := s.replReached n t
  let out := (List.range 66).filter fun r => !reach.contains r
  let addrs := ((m.bank bank).map (·.1) ++ set.map (·.1)).eraseDups
  (m.upsets.filter fun u => decide (u.bank ≠ bank)) ++
  out.flatMap fun r => addrs.filterMap fun a =>
    let mask := m.stored bank r a ^^^ storeWord (spGet 0 set a)
    if mask = 0 then none else some ⟨bank, r, a, mask⟩

/-- The publish of a code and cluster as PUBLISH rows name it. -/
def pubTarget (c : Nat) : Nat := if c < 8 then c else 8 + c

/-- SHADOW_WRITE_COMPLETE (R126): the broadcast write ends and verification begins; `inst` is the target code. -/
def execShadowWriteComplete (kind inst : Nat) (s : State) : Result := finish s <|
  match tblOfKind kind with
  | some t =>
    (match (s.tbl inst t).write with
    | some w =>
      if w.verifying ∨ !reached (s.nowL inst) w.due ∨ (s.tbl inst t).fillDue.isSome then .next s
      else
        let b := s.shadowBank inst t
        let now := s.nowL inst
        let due := if t = .ctx then s.later (dieOfLine inst) 2 else if now = w.due then s.later (dieOfLine inst) 1 else now
        let rows := s.rowsWritten inst t b w.set
        let ups := s.upsetsWritten inst t b w.set
        let s := s.modTbl inst t fun m =>
          { (m.setBank b w.set) with
            spares := rows
            upsets := ups
            poison := m.poison.filter fun x => decide (x.1 ≠ b)
            shadow := w.stamp, write := some { w with verifying := true, due := due } }
        let s := s.watchBank inst t b
        .next (if w.origin = .publish then
          (match s.findPub kind inst with
          | some p => (s.modPub kind inst fun p => { p with phase := .verifying }).pubStatus p.die kind inst pubVerifying
          | none => s) else s)
    | none => .next s)
  | none =>
    match s.findPub kind inst with
    | some p =>
      if p.phase = .writing ∧ reached (s.now (dieOfTarget inst)) p.due then
        .next ((s.modPub kind inst fun p => { p with phase := .verifying }).pubStatus p.die kind inst pubVerifying)
      else .next s
    | none => .next s

/-! ### Verification (R126, R127) -/

/-- Mark a spare unusable (R127, R137). -/
def State.spareUnusable (s : State) (n : Nat) (t : Tbl) (repl : Nat) : State :=
  let s := (s.wrBit66 (healthAddr t n) repl false).wrBit66 (readyAddr t n) repl false
  s.healthChg.logEv { level := 1, die1 := decide (n ≥ 4), inst := n, code := 0x1206, detail := t.ix * 256 + repl }

/-- What a verification pass over one address found: the state, remaps made for entries that stay bad, and in-service
replicas with an entry that could not be remapped. -/
structure Verified where
  s : State
  remaps : Nat
  failed : List Nat

/-- Verify one address of one replica of the shadow (R126, R127, R135). -/
def Verified.one (v : Verified) (n : Nat) (t : Tbl) (bank : Nat) (again : List Upset) (repl addr : Nat) : Verified :=
  let s := v.s
  let agreed := spGet 0 ((s.tbl n t).bank bank) addr
  let here := fun (u : Upset) => decide (u.bank = bank ∧ u.repl = repl ∧ s.upsetAddr n t u = some addr)
  let rewrite := fun (s : State) => s.modTbl n t fun m => { m with
    upsets := (m.upsets.filter fun u => !here u) ++ (again.map fun u => { u with bank := bank }).filter here }
  let watched := fun (s : State) => match s.trackFind n (trackKey t bank repl addr) with
    | some k => decide (bits (s.rd (CTX.TRACK n k)) 30 29 = 2)
    | none => false
  let after := fun (s : State) (made : Bool) =>
    let o := s.readRepl n t bank repl addr
    let s := match o with
      | .clean _ => s
      | .corrected _ => s.trackCorr n t bank repl addr agreed
      | .bad => s.inc (CTX.UNCORR_EVENTS n)
    if o = .clean agreed ∨ o = .corrected agreed then (s, 0, [])
    else if made then (s, 1, [])
    else if s.replServes n t repl then
      (let r := s.remapOrRetire n t bank repl addr agreed
       if r.2 then (r.1, 1, []) else (r.1, 0, [repl]))
    else (s.spareUnusable n t repl, 0, [])
  let r := match s.readRepl n t bank repl addr with
    | .clean x => if x = agreed then (s, 0, []) else after (rewrite s) false
    | .corrected x =>
      let s := s.trackCorr n t bank repl addr agreed
      if x = agreed then (s, 0, []) else after (rewrite s) false
    | .bad =>
      let s := s.inc (CTX.UNCORR_EVENTS n)
      if watched s then
        let r := s.remapOrRetire n t bank repl addr agreed
        after (rewrite (match s.trackFind n (trackKey t bank repl addr) with
          | some k => if r.2 then r.1.trackFree n k else r.1
          | none => r.1)) r.2
      else after (rewrite s) false
  ⟨r.1, v.remaps + r.2.1, v.failed ++ r.2.2⟩

/-- Verify the shadow: every address of a reached replica that does not hold the broadcast entry, spare rows included. -/
def State.verifyShadow (s : State) (n : Nat) (t : Tbl) (ups again : List Upset) : Verified :=
  let b := s.shadowBank n t
  let s := s.modTbl n t fun m => m.upset (ups.map fun u => { u with bank := b })
  let reach := s.replReached n t
  let keys := ((((s.tbl n t).upsets.filter fun u => decide (u.bank = b) && reach.contains u.repl).filterMap
    fun u => (s.upsetAddr n t u).map fun a => (u.repl, a))).eraseDups
  keys.foldl (fun v k => v.one n t b again k.1 k.2) ⟨s, 0, []⟩

/-- The shadow of a table is COMPLETE: what its originator does next (R127, R129). -/
def State.shadowComplete (s : State) (n : Nat) (t : Tbl) (o : Origin) : State :=
  let s := (s.modTbl n t fun m => { m with write := none }).setShadow n t 2
  match o with
  | .publish => s.modPub t.kind n fun p => { p with phase := .complete, due := s.nowL n }
  | .load => match s.findLoad t.kind n with
    | some l => s.loadHeld l
    | none => s.setShadow n t 0
  | .refresh => s.modTbl n t fun m => { m with armed := some .refresh, armedDue := s.later (dieOfLine n) 1 }
  | .zero => s.modTbl n t fun m => { m with armed := some .zero, armedDue := s.later (dieOfLine n) 1 }
  | .repair => s

/-- The shadow cannot be made COMPLETE: its originator is told, and it is STALE (R127). A zero set is written again. -/
def State.shadowFails (s : State) (n : Nat) (t : Tbl) (w : TblWrite) : State :=
  match w.origin with
  | .publish => (s.inc (CTX.PUBLISH_HELD n)).dropPub t.kind n pubHeld
  | .load =>
    let s := s.stopWrite n t
    (match s.findLoad t.kind n with
    | some l => s.loadFails l
    | none => s)
  | .zero => s.startWrite n t .zero [] w.stamp
  | .refresh | .repair => s.stopWrite n t

/-- Does the pending unit commit retire all of these replicas of a table (Table 4-11)? -/
def State.retiring (s : State) (n : Nat) (t : Tbl) (rs : List Nat) : Option Nat :=
  match s.unit with
  | some u => if rs.all fun r => u.items.any fun x => decide (x.kind = t.unit ∧ x.lane = n ∧ x.index = r ∧ x.refused = none) then
      some u.target else none
  | none => none
/-- The set is written again on the new map once the unit commit of this boundary has applied (Table 4-11). -/
def State.writeAgain (s : State) (n : Nat) (t : Tbl) (w : TblWrite) (target : Nat) : State :=
  s.modTbl n t fun m => { m with
    write := some { w with verifying := false, due := addTicks target (t.ticks * s.tickLen (dieOfLine n)) } }

/-- SHADOW_VERIFY_COMPLETE (R127): `ups` are the errors the first read meets, `again` those the rewrite leaves. -/
def execShadowVerifyComplete (kind inst : Nat) (ups again : List Upset) (s : State) : Result := finish s <|
  match tblOfKind kind with
  | some t =>
    (match (s.tbl inst t).write with
    | some w =>
      if !w.verifying ∨ !reached (s.nowL inst) w.due then .next s
      else
        let v := s.verifyShadow inst t ups again
        .next (if v.failed ≠ [] then
            (match v.s.retiring inst t v.failed with
            | some target => v.s.writeAgain inst t w target
            | none => v.s.shadowFails inst t w)
          else if v.remaps > 0 then
            v.s.modTbl inst t fun m => { m with write := some { w with due := s.later (dieOfLine inst) (max 1 t.ticks) } }
          else v.s.shadowComplete inst t w.origin)
    | none => .next s)
  | none =>
    match s.findPub kind inst, s.findLoad kind (if kind = 8 then inst - 16 else inst) with
    | some p, _ =>
      if p.phase = .verifying then .next (s.modPub kind inst fun p => { p with phase := .complete }) else .next s
    | none, some l => .next (s.loadHeld l)
    | none, none => .next s

/-! ### Loads, fills, refreshes and repairs -/

/-- Stamps of a loaded set (R124): a shaping set is not temperature-specific. -/
def Load.stamp (l : Load) : Stamp :=
  ⟨l.words.getD 0 0, l.epoch, if l.kind = 1 then l.words.getD 2 0 else 0x8000, some (l.words.getD 1 0 % 4)⟩
/-- Entries of a loaded context or shaping set. -/
def Load.entries (l : Load) : List (Nat × Nat) := sparse (l.words.drop (if l.kind = 1 then 3 else 2))

/-- May a load's write start: nothing else is writing or armed on this shadow (R128, R308)? -/
def State.loadMayStart (s : State) (n : Nat) (t : Tbl) : Bool :=
  (s.tbl n t).write.isNone && (s.tbl n t).armed.isNone && (s.tbl n t).fillDue.isNone &&
  (match s.findPub t.kind n with
    | some p => !p.live
    | none => true)

/-- Start the write of a load. -/
def State.loadStart (s : State) (n : Nat) (t : Tbl) (l : Load) : State :=
  let s := { s with loads := s.loads.map fun x => if x = l then { x with phase := .writing } else x }
  s.startWrite n t .load l.entries l.stamp

/-- TABLE_LOAD_WRITE_START (R128). -/
def execTableLoadWriteStart (n : Lane) (t : Tbl) (s : State) : Result := finish s <|
  match s.loads.find? fun l => decide (l.kind = t.kind ∧ l.inst = n.val ∧ l.phase = .waits) with
  | some l => .next (if s.loadMayStart n.val t then s.loadStart n.val t l else s)
  | none => .next s

/-- Power up a table domain (R118): both banks and every spare row are filled with 0x0000 over 2 ticks; no replica is ready
until its first sweep (R120). -/
def State.powerTable (s : State) (n : Nat) (t : Tbl) : State :=
  if (s.tbl n t).powered then s
  else
    let s := s.modTbl n t fun m => { TblMem.reset with
      powered := true, fillDue := some (s.later (dieOfLine n) 2), returning := m.returning }
    let s := (s.wr (readyAddr t n).1 0).wr (readyAddr t n).2 0
    ((s.setShadow n t 0).showStamp n t .zero).wr (PWR.DOM_STATE (24 + 8 * t.ix + n)) 1

/-- TABLE_DOMAIN_FILL_COMPLETE (R118). -/
def execTableDomainFillComplete (n : Lane) (t : Tbl) (s : State) : Result := finish s <|
  match (s.tbl n.val t).fillDue with
  | some u => .next (if reached (s.nowL n.val) u then s.modTbl n.val t fun m => { m with fillDue := none } else s)
  | none => .next s

/-- Is a repair from the master copy held up (R132): an open window, the Joiner of the master copy restarting, a pending
commit holding the shadow, a write already running, or a publish or commit arming? -/
def State.repairWaits (s : State) (n : Nat) (t : Tbl) : Bool :=
  let m := s.tbl n t
  m.window.isSome || m.write.isSome || m.armed.isSome || m.fillDue.isSome || !m.powered ||
  decide (s.rd (JNR.STATE (s.servJ (dieOfLine n))) = 3) || s.commitUses t.kind n ||
  (match s.findPub t.kind n with
    | some p => decide (p.phase = .armed)
    | none => false)

/-- A loaded set that no commit has taken up gives its shadow to a refresh and waits to be written again (log 174). -/
def State.loadAgain (s : State) (n : Nat) (t : Tbl) : State :=
  let d := s.domOfDie (dieOfLine n)
  let mine := fun (x : TableSet) => decide (x.kind = t.kind ∧ x.inst = n)
  let back := ((s.dom d).held.filter mine).map fun x => Load.mk x.kind x.inst x.words.length x.words .waits x.epoch none
  { s.modDom d fun m => { m with held := m.held.filter fun x => !mine x } with loads := s.loads ++ back }

/-- REFRESH_START (R132): no swap armed within 64 ticks of the need; a COMPLETE shadow that no swap arms is
overwritten. DESIGN CHOICE: also from a master copy found bad (log 167). -/
def execRefreshStart (n : Lane) (t : Tbl) (s : State) : Result := finish s <|
  match (s.tbl n.val t).needActive with
  | some t0 =>
    if s.sinceL n.val t0 < 64 ∨ s.repairWaits n.val t then .next s
    else .next (((s.displace t.kind n.val).loadAgain n.val t).startWrite n.val t .refresh (s.masterSet n.val t)
      (s.tbl n.val t).active)
  | none => .next s

/-- SHADOW_REPAIR_START (R132). -/
def execShadowRepairStart (n : Lane) (t : Tbl) (s : State) : Result := finish s <|
  match (s.tbl n.val t).needShadow with
  | some t0 =>
    if s.sinceL n.val t0 < 64 ∨ s.repairWaits n.val t ∨ s.shadow n.val t ≠ 0 then .next s
    else .next (s.startWrite n.val t .repair (s.masterSet n.val t) (s.tbl n.val t).active)
  | none => .next s


/-- REFRESH_SWAP (R130, R132): the stamps stay those of the master copy, and no update window opens. -/
def execRefreshSwap (n : Lane) (t : Tbl) (s : State) : Result := finish s <|
  if s.refreshDue n.val t ∧ !s.dueBefore .refresh then
    .next (((s.swapBanks n.val t).inc (CTX.REFRESH_CNT n.val)).noteSwap t.kind n.val)
  else .next s

/-- ZERO_SET_SWAP (R285): 6 ticks after the relink began for context, 3 for shaping. -/
def execZeroSetSwap (n : Lane) (t : Tbl) (s : State) : Result := finish s <|
  if s.zeroDue n.val t ∧ !s.dueBefore .refresh then
    let s := s.modTbl n.val t fun m => { m with shadow := { Stamp.zero with epoch := s.nowL n.val } }
    .next (((s.swapBanks n.val t).openWindow n.val t 16).noteSwap t.kind n.val)
  else .next s

/-! ### Scrubber, remaps, tracker -/

/-- Replicas in service that are to be retired: those a retirement was refused, and those unusable (R119, R138). -/
def State.toRetire (s : State) (n : Nat) (t : Tbl) : List Nat :=
  (List.range 66).filter fun r => s.replServes n t r && ((s.tbl n t).wanted.contains r || !s.replUsable n t r)

/-- The table controller writes the banks of returning replicas from the master copy through their idle ports and
verifies them (R139); a shadow that holds another set has taken it with all replicas. -/
def State.writeReturning (s : State) (n : Nat) (t : Tbl) : State :=
  let m := s.tbl n t
  let b := s.shadowBank n t
  let master := s.masterSet n t
  let own := m.returning.flatMap fun r =>
    ((m.bank b).map (·.1) ++ master.map (·.1)).eraseDups.filterMap fun a =>
      let mask := storeWord (spGet 0 (m.bank b) a) ^^^ storeWord (spGet 0 master a)
      if mask = 0 ∨ s.shadow n t ≠ 0 then none else some ⟨b, r, a, mask⟩
  s.modTbl n t fun m => { m with
    upsets := (m.upsets.filter fun u => !m.returning.contains u.repl) ++ own, prepared := m.returning }

/-- What the firmware asks for when spares have become ready: returning replicas are rewritten and admitted, and waiting
replicas retired (R138, R139). -/
def State.askWaiting (s : State) (n : Nat) (t : Tbl) : State :=
  let s := if (s.tbl n t).returning = [] then s else (s.writeReturning n t).unitAdmit
  match s.toRetire n t, s.readySpares n t with
  | r :: _, _ :: _ => s.unitJoin ⟨t.unit, n, r, none, none, none⟩
  | _, _ => s

/-- Spares and in-service replicas found ready at the end of a sweep (R120). -/
def State.sweepDone (s : State) (n : Nat) (t : Tbl) : State :=
  let s := (List.range 66).foldl (fun s r =>
    if s.replUsable n t r ∧ !(s.tbl n t).returning.contains r then s.wrBit66 (readyAddr t n) r true else s) s
  (if t = .ctx then s.inc (CTX.SCRUB_SWEEPS n) else s).askWaiting n t

/-- SCRUB_READ (R131): one address of every usable replica's active bank, in IMAGO and INSTAR. -/
def execScrubRead (n : Lane) (t : Tbl) (ups : List Upset) (s : State) : Result := finish s <|
  let m := s.tbl n.val t
  if !m.powered ∨ m.fillDue.isSome ∨ s.rd PWR.STATE ≥ 2 then .next s
  else
    let s := s.modTbl n.val t fun m => m.upset ups
    let b := s.actBank n.val t
    let a := m.scrub
    let hit := (((s.tbl n.val t).upsets.filter fun u =>
      decide (u.bank = b ∧ s.upsetAddr n.val t u = some a) && s.replUsable n.val t u.repl).map fun u => u.repl).eraseDups
    let s := hit.foldl (fun s r => s.report n.val t b r a (s.readRepl n.val t b r a)) s
    let next := (a + 1) % t.size
    let s := s.modTbl n.val t fun m => { m with scrub := next }
    .next (if next = 0 then s.sweepDone n.val t else s)

/-- REMAP_ACTIVATION (R136): the redirects that are due take effect; a spare row whose verification fails is written
again and waits for the next boundary. -/
def execRemapActivation (n : Lane) (s : State) : Result := finish s <|
  let on := fun (m : TblMem) =>
    let row := fun (k : Nat) => let w := s.rd (CTX.REMAP n.val k); (bits w 29 29, bits w 28 22, bits w 21 20)
    let bad := fun (k : Nat) => let r := row k; decide (readWord (m.row r.1 r.2.1 r.2.2) = .bad)
    let due := fun (x : Nat × Nat) => s.dueAt (dieOfLine n.val) x.2
    { m with
      upsets := m.upsets.filter fun u => !m.newRemaps.any fun x =>
        due x && bad x.1 && decide (row x.1 = (u.bank, u.repl, u.addr - 0x1000) ∧ 0x1000 ≤ u.addr)
      newRemaps := m.newRemaps.filterMap fun x =>
        if !due x then some x else if bad x.1 then some (x.1, s.later (dieOfLine n.val) 1) else none }
  .next (if s.dueBefore .remap then s else (s.modTbl n.val .ctx on).modTbl n.val .shp on)

/-- TRACKER_WATCH_EXPIRY (R135). -/
def execTrackerWatchExpiry (n : Lane) (k : Fin 16) (s : State) : Result := finish s <|
  match ((s.track.getD n.val ⟨[], [], []⟩).watch.getD k.val none) with
  | some t0 =>
    if bits (s.rd (CTX.TRACK n.val k.val)) 31 29 = 6 ∧ 4096 ≤ s.sinceL n.val t0 then .next (s.trackFree n.val k.val)
    else .next s
  | none => .next s

/-! ### Master copies -/

/-- Recurrences, corrected or not, whose remap waited for an open update window are remapped when it closes (R123, R136,
Table 4-11). -/
def State.remapWatched (s : State) (n : Nat) (t : Tbl) : State :=
  let owed := (s.track.getD n ⟨[], [], []⟩).owed
  let s := { s with track := modNth ⟨[], [], []⟩ s.track n fun x => { x with
    owed := x.owed.filter fun key => decide (bits key 28 28 ≠ t.ix) } }
  (List.range 16).foldl (fun s k =>
    let w := s.rd (CTX.TRACK n k)
    let b := s.actBank n t
    let a := bits w 11 0
    if bits w 31 29 = 6 ∧ bits w 28 28 = t.ix ∧ bits w 27 27 = b ∧ owed.contains (keyOfTrack w) then
      (let r := s.remapOrRetire n t b (bits w 26 20) a (s.masterEntry t.kind n a)
       if r.2 then r.1.trackFree n k else r.1)
    else s) s

/-- MASTER_COPY_UPDATE (R123, R223): the MAINT slot copies a swapped publish, or the management controller the set in
service, into the master copy; the buffer is unlocked and the window closes. -/
def execMasterCopyUpdate (kind : Fin 8) (tgt : Chan) (s : State) : Result := finish s <|
  let k := kind.val + 1
  let tc := pubTarget tgt.val
  let close := fun (s : State) => match tblOfKind k with
    | some t => (s.closeWindow tc t).remapWatched tc t
    | none => s
  match s.findSwapped k tc with
  | some p =>
    if s.rd (JNR.STATE p.die) ≥ 3 then .next s
    else .next (close ((s.writeMaster p.die k tc p.words p.setId p.epoch p.temp p.gen).freeSwapped k tc))
  | none =>
    match tblOfKind k with
    | some t =>
      let m := s.tbl tc t
      if m.window.isSome ∧ tc < 8 then
        let die := dieOfLine tc
        .next (close (s.writeMaster (s.servJ die) k tc (s.activeWords tc t) m.active.setId m.active.epoch m.active.temp
          (s.cfgGen (s.domOfDie die))))
      else .next s
    | none => .next s

/-- MASTER_COPY_CHECK_FAIL (R133): the entry is rebuilt from two replicas; where neither has it, the master copy is bad
from the next boundary. An open update window rewrites the copy first (R123). -/
def execMasterCopyCheckFail (n : Lane) (t : Tbl) (addr : BitVec 12) (s : State) : Result := finish s <|
  let d := s.servJ (dieOfLine n.val)
  let a := addr.toNat % t.size
  if (s.tbl n.val t).window.isSome then .next s else
  match s.goodEntry n.val t a with
  | some v => .next (s.modJn d fun j => { j with dm := dmPut j.dm ((masterArea t.kind n.val).1 + 2 * a) 2 v })
  | none => .next (s.modTbl n.val t fun m => { m with masterBad := m.masterBad ++ [a] })

/-! ### Publishes (R36, R129, R222) -/

/-- PUBLISH_ARM (R36, R78, R129, R221): suppressed in HOLD and FAILED, refused where CFG_GEN has changed; waits for 4
ticks since the last swap. -/
def execPublishArm (kind : Fin 8) (tgt : Chan) (s : State) : Result := finish s <|
  let k := kind.val + 1
  let tc := pubTarget tgt.val
  match s.findPub k tc with
  | some p =>
    if p.phase ≠ .complete then .next s
    else if s.pubBarred k tc none then .next ((s.inc (JNR.PUBLISH_SUPPRESSED p.die)).dropPub k tc pubSuppressed)
    else if p.gen ≠ s.cfgGen (s.domOfDie (dieOfTarget tc)) then .next ((s.inc (JNR.PUBLISH_STALE p.die)).dropPub k tc pubStale)
    else if !s.swapFree k tc (s.later (dieOfTarget tc) 1) 4 then .next s
    else .next ((s.modPub k tc fun p => { p with phase := .armed, due := s.later (dieOfTarget tc) 1 }).pubStatus p.die k tc pubArmed)
  | none => .next s

/-- PUBLISH_SWAP (R222): an armed publish takes effect at its boundary, unless its lane entered HOLD before it (R78). -/
def execPublishSwap (kind : Fin 8) (tgt : Chan) (s : State) : Result := finish s <|
  let k := kind.val + 1
  let tc := pubTarget tgt.val
  match s.findPub k tc with
  | some p =>
    if !s.publishDue p ∨ s.dueBefore .publish then .next s
    else if s.pubBarred k tc (some p.due) then .next ((s.inc (JNR.PUBLISH_SUPPRESSED p.die)).dropPub k tc pubSuppressed)
    else
      let s := ((s.freeSwapped k tc).pubEffect p).noteSwap k tc
      let s := (s.modPub k tc fun p => { p with phase := .swapped }).pubStatus p.die k tc pubSwapped
      .next (s.inc (JNR.PUBLISH_CNT p.die))
  | none => .next s

end Sys2Proof.Machine
end

