-- ==== Sys2Proof/Machine/LaneOps.lean ====
section
/-!
DEFINITION. Operations the line and host lanes share: power domains, logs of lanes, line loss, holds, relinks, the
stale-state check, the steps of bring-up (R44, R69, R77 to R82, R101, R110, R111, R192 to R196, R284, R285, R382).
-/

namespace Sys2Proof.Machine

/-! ### Logs -/

/-- A cluster-level entry of a line lane. -/
def State.lineLog (s : State) (n code detail : Nat) (irq : Bool := false) : State :=
  s.logEv { level := 1, irq := irq, die1 := decide (n ≥ 4), inst := n, code := code, detail := detail }
/-- A cluster-level entry of a host lane. -/
def State.hostLog (s : State) (k code detail : Nat) (irq : Bool := false) : State :=
  s.logEv { level := 1, irq := irq, die1 := decide (k ≥ 8), inst := k, code := code, detail := detail }

/-! ### Power domains (R44, R382, R383) -/

/-- FAULT_STAT bit 5 clears when no domain and no clock is failed (R483). -/
def State.faultCheck (s : State) : State :=
  if (List.range 96).any (fun i => decide (s.rd (PWR.DOM_STATE i) = 3)) ||
      (List.range 48).any (fun i => decide (s.rd (PWR.CLK_STATE i) = 3)) then s
  else s.faultOff 5
/-- Set a domain's state; leaving FAILED may end the fault. -/
def State.setDom (s : State) (i v : Nat) : State :=
  if s.rd (PWR.DOM_STATE i) = 3 then (s.wr (PWR.DOM_STATE i) v).faultCheck else s.wr (PWR.DOM_STATE i) v
/-- Put a powered domain into reset. -/
def State.domReset (s : State) (i : Nat) : State :=
  s.modSys fun y => { y with resetting := i :: y.resetting.filter fun j => decide (j ≠ i) }
/-- Power a domain up: on, in reset. -/
def State.domUp (s : State) (i : Nat) : State :=
  if s.rd (PWR.DOM_STATE i) = 1 then s else (s.setDom i 1).domReset i
/-- Power a domain off. -/
def State.domOff (s : State) (i : Nat) : State :=
  (s.setDom i 0).modSys fun y => { y with resetting := y.resetting.filter fun j => decide (j ≠ i) }
/-- Is a domain on and out of reset? -/
def State.domReady (s : State) (i : Nat) : Bool :=
  decide (s.rd (PWR.DOM_STATE i) = 1) && !s.sys.resetting.contains i
/-- PLL of a region: line at 2r, host at 2r + 1. -/
def State.pll (s : State) (i : Nat) : Pll := s.sys.plls.getD i .reset
def State.modPll (s : State) (i : Nat) (f : Pll → Pll) : State := s.modSys fun y => { y with plls := modNth .reset y.plls i f }

/-- Power the PLLs and the host-code unit of a region for a bring-up; a failed region is tried again once every cluster
of it has gone down, and stays FAILED until it locks (R45, R161). -/
def State.regionUp (s : State) (r : Nat) : State :=
  let start := fun (s : State) (i : Nat) => s.modPll i fun p =>
    if p.locked ∨ (p.failed ∧ !p.retry) then p else { Pll.reset with relocking := true, failed := p.failed }
  let s := if s.rd (PWR.DOM_STATE (76 + r)) = 0 then s.wr (PWR.DOM_STATE (76 + r)) 1 else s
  ((start (start s (2 * r)) (2 * r + 1)).domUp (72 + r)).segBypass r

/-- Is any cluster of a region up? -/
def State.regionInUse (s : State) (r : Nat) : Bool :=
  s.lineUp (2 * r) || s.lineUp (2 * r + 1) || (List.range 4).any fun j => s.hostUp (4 * r + j)
/-- Power a region's PLLs and host-code unit off when no cluster of it is up; a FAILED PLL domain stays so (R45). -/
def State.regionDown (s : State) (r : Nat) : State :=
  let off := fun (p : Pll) => { Pll.reset with failed := p.failed, retry := p.failed }
  if s.regionInUse r then s
  else
    let s := s.domOff (72 + r)
    let s := ((s.setAligned r false false).setAligned r true false).modTap (tapIx r false) fun _ => .reset
    let s := ((s.wrBit (FEC.FLAGS (2 * r)) 5 false).wrBit (FEC.FLAGS (2 * r + 1)) 5 false).modTap (tapIx r true) fun _ => .reset
    let s := if s.rd (PWR.DOM_STATE (76 + r)) = 3 then s else s.domOff (76 + r)
    (s.modPll (2 * r) off).modPll (2 * r + 1) off


/-! ### Line loss (R194) -/

/-- Does a condition of line loss hold on a line lane? -/
def State.lossHolds (s : State) (n : Nat) : Bool :=
  decide (s.rd (LRX.STATE n) ≠ 3 ∨ s.rd (FEC.FRAME_STATE n) ≠ 2) || s.bit (FEC.FLAGS n) 1
/-- Line loss begins on the up host lanes of the pair while a condition holds; the OUT tap of the region needs both its
line lanes (R163). -/
def State.lossCheck (s : State) (n : Nat) : State :=
  let s := s.tapCheck (regionOfLine n) true
  if s.lossHolds n then
    (pairOf n).foldl (fun s k =>
      if s.hostUp k ∧ !s.bit (HTX.FLAGS k) 0 then
        ((s.wrBit (HTX.FLAGS k) 0 true).inc (HTX.LINE_LOSS_CNT k)).modHost k fun h => { h with clean := 0, prbs := none }
      else s) s
  else s

/-! ### Clock sources and payload (R100 to R102, R193, R194) -/

/-- The line transmit clock takes its source from the host pair; a recovered clock beyond 100 ppm gives HOLDOVER
(R101). -/
def State.txClock (s : State) (n : Nat) : State :=
  let st := s.rd (LTX.STATE n)
  if st = 1 ∨ st = 2 ∨ st = 3 then
    if s.pairValid n ∧ (s.rdS (HRX.CDR_FREQ (2 * n))).natAbs ≤ 10000 then
      (s.wr (LTX.CLK_SRC n) 1).modTx n fun t => { t with hadHost := true }
    else if (s.txL n).hadHost then s.wr (LTX.CLK_SRC n) 2
    else s
  else s
/-- A running line lane carries payload while the pair is valid and the frequencies agree within 1 ppm, else fill, whose
generator starts in a free state (R102, R159). -/
def State.payloadSwitch (s : State) (n : Nat) : State :=
  let st := s.rd (LTX.STATE n)
  let pay := s.pairValid n && decide ((s.rdS (LTX.CLK_FREQ n) - s.rdS (HRX.CDR_FREQ (2 * n))).natAbs ≤ 100)
  if st = 2 ∨ st = 3 then
    if pay then s.modTx n fun t => { t with fill := false }
    else if (s.txL n).fill then s
    else { s with free := s.free + 1 }.modTx n fun t => { t with fill := true, prbs := Config.fillSeed s.free }
  else s
/-- The HOLDOVER flag of a line transmit lane (Table 3-11). -/
def State.txFlags (s : State) (n : Nat) : State := s.wrBit (LTX.FLAGS n) 6 (decide (s.rd (LTX.CLK_SRC n) = 2))
/-- The HOLDOVER and SQUELCHED flags of a host transmit lane (Table 6-10). -/
def State.htxFlags (s : State) (k : Nat) : State :=
  (s.wrBit (HTX.FLAGS k) 3 (decide (s.rd (HTX.CLK_SRC k) = 2))).wrBit (HTX.FLAGS k) 1
    (s.hostUp k && decide (s.rd (HTX.SQUELCH k) = 1))
/-- What the state of the host pair gives its line lane at a boundary. -/
def State.pairCheck (s : State) (n : Nat) : State := ((s.txClock n).payloadSwitch n).txFlags n
/-- Host transmit clocks take their source from the line lane (Table 6-4). -/
def State.hostClock (s : State) (n : Nat) : State :=
  (pairOf n).foldl (fun s k =>
    if !s.hostUp k then s
    else if s.rd (LRX.STATE n) = 3 then (s.wr (HTX.CLK_SRC k) 1).htxFlags k
    else if (s.hostL k).lineSeen then (s.wr (HTX.CLK_SRC k) 2).htxFlags k
    else s) s

/-! ### Line receive: holds, relinks, stale state -/

/-- End a background calibration beside traffic whose lane leaves TRACK (R277). -/
def State.endBgCal (s : State) (n : Nat) : State :=
  match (s.rxL n).bgCal with
  | none => s
  | some _ =>
    let s := s.modRx n fun r => { r with bgCal := none }
    (match s.findOp 0x30 n with
    | some o => (s.refuse o.ref .busy "LANE_STATE").endOp o.ref.rid
    | none => s)

/-- Enter HOLD (R77, R219): packets are truncated, a relink or calibration in progress ends. -/
def State.rxHold (s : State) (n : Nat) : State :=
  let s := (s.setRxState n 4).capTruncate n
  (((s.modRx n fun r => { r with relinkT := none, step := 0, holdAt := s.nowL n }).endBgCal n).lossCheck n).hostClock n

/-- Enter FAILED (R77, R82): logged with the bring-up step. -/
def State.rxFail (s : State) (n : Nat) : State :=
  let step := (s.rxL n).step
  let s := (s.setRxState n 5).capTruncate n
  let s := ((s.modRx n fun r => { r with relinkT := none, step := 0, calMeth := 0 }).endBgCal n).lossCheck n
  let s := s.hostClock n
  s.lineLog n 0x1005 step true

/-- Write the zero set into the shadow of a stale table from the next tick, unless a pending host commit holds it
(R285). -/
def State.zeroWrite (s : State) (n : Nat) (t : Tbl) : State :=
  if s.commitUses t.kind n then s
  else
    let s := s.displace t.kind n
    let s := s.modDom (s.domOfDie (dieOfLine n)) fun m => { m with
      held := m.held.filter fun x => decide (¬ (x.kind = t.kind ∧ x.inst = n)) }
    let s := { s with loads := s.loads.map fun (l : Load) =>
      if l.kind = t.kind ∧ l.inst = n ∧ l.phase = LoadPhase.writing then { l with phase := LoadPhase.waits } else l }
    s.startWrite n t .zero [] .zero 1

/-- Is the active set of a table stale (R284)? -/
def State.stale (s : State) (n : Nat) (t : Tbl) : Bool :=
  let st := (s.tbl n t).active
  let diff := (sgn 16 st.temp - sgn 16 (s.regionTemp (regionOfLine n))).natAbs
  let age := s.rd DEV.STALE_TICKS
  decide (st.temp ≠ 0x8000 ∧ diff > 32) || decide (age ≠ 0 ∧ s.sinceL n st.epoch > age)

/-- Set CONSERVATIVE, logged with its cause (R284, R82, Table 17-3). -/
def State.conservative (s : State) (n detail : Nat) : State :=
  ((s.wrBit (LRX.FLAGS n) 6 true).modRx n fun r => { r with adCtx := false, adFfe := false }).lineLog n 0x100A detail true

/-- The stale-state check of a relink (R284, R285). -/
def State.staleCheck (s : State) (n : Nat) : State :=
  let c := s.stale n .ctx
  let p := s.stale n .shp
  if !c ∧ !p then s
  else
    let s := (s.conservative n (c.toNat + 2 * p.toNat)).inc DEV.STALE_CNT
    let s := if c then (s.zeroWrite n .ctx).modRx n fun r => { r with consOwed := true } else s
    if p then s.zeroWrite n .shp else s

/-- The word of the active gain-table row (R68). -/
def State.gainRowNow (s : State) (n : Nat) : Nat := (s.rxL n).gain.getD (1 + s.rd (LRX.TR_ROW n)) 0
/-- DWELL of the active row; 0 is terminal (Table 2-6). -/
def State.dwellNow (s : State) (n : Nat) : Nat := s.gainRowNow n % 65536

/-- Does a lane count DWELL in its gain-table row: acquisition has begun and the row is not terminal (R68)? -/
def State.rowRuns (s : State) (n : Nat) : Bool :=
  let st := s.rd (LRX.STATE n)
  let k := (s.rxL n).step
  decide ((st = 3 ∨ (st = 2 ∧ (k = 5 ∨ k = 6 ∨ k = 14 ∨ k = 15))) ∧ s.dwellNow n ≠ 0)

/-- Start a relink (R81, Table 2-11); `why` is the code of Table 17-3. -/
def State.startRelink (s : State) (n why : Nat) : State :=
  let r := s.rxL n
  let s := (s.inc (LRX.RELINK_CNT n)).lineLog n 0x1003 why
  let s := (s.setRxState n 2).wr (LRX.TR_ROW n) (r.gain.getD 0 0 % 8)
  let s := s.modRx n fun r => { r with
    relinkT := some (s.nowL n), relinkWhy := why, fellBack := false, step := 13, dwell := 0, lolTicks := 0, goodTicks := 0
    f := if r.lolByFreq then 0 else r.f, lolByFreq := false, holdLos := false, holdLol := false, holdPll := false
    holdGo := false, calMeth := 0, recipe := { r.recipe with llrOwed := true } }
  let s := if s.rd (FEC.FRAME_STATE n) = 0 then s.wr (FEC.FRAME_STATE n) 1 else s
  s.staleCheck n

/-- Leave HOLD where every cause has cleared and LOS is clear (R77, Table 2-11): AUTO_RELINK = 1, a LANE_UP or a wake asks
for it. -/
def State.tryRelink (s : State) (n why : Nat) : State :=
  let r := s.rxL n
  if s.rd (LRX.STATE n) = 4 ∧ !s.sys.lanesIdle ∧ !s.bit (LRX.FLAGS n) 0 ∧ !r.holdLos ∧ !r.holdLol ∧ !r.holdPll ∧
      (r.holdGo ∨ s.rd (LRX.AUTO_RELINK n) = 1) then
    s.startRelink n (if r.holdGo then r.relinkWhy else why)
  else s
/-- A relink is asked for, for a reason of Table 17-3: it begins as soon as it may. -/
def State.askRelink (s : State) (n why : Nat) : State :=
  (s.modRx n fun r => { r with holdGo := true, relinkWhy := why, holdLol := false }).tryRelink n why

/-! ### Pattern evaluators (R156, R157) -/

/-- Does an evaluator serve an entry? -/
def State.evalServes (s : State) (n e : Nat) : Bool := (List.range 32).any fun k => decide (s.rd (FEC.EVAL_MAP n k) = e)
/-- The usable evaluators that serve no entry: the spares. -/
def State.idleEvals (s : State) (n : Nat) : List Nat :=
  (List.range 34).filter fun e => s.bit (FEC.EVAL_HEALTH n) e && !s.evalServes n e
/-- An evaluator starts a fresh shadow cycle as a spare (R157). -/
def State.evalSpare (s : State) (n e : Nat) : State :=
  (s.wrBit (FEC.EVAL_READY n) e false).modRx n fun r => { r with
    evalCycle := (e, s.nowL n) :: r.evalCycle.filter fun x => decide (x.1 ≠ e) }
/-- The in-service evaluator a spare has shadowed in the ended tick (R156): an even spare takes the even ones in turn, an
odd spare the odd ones, from the lane's power-up on (log 177). -/
def State.shadowed (s : State) (n sp : Nat) : Option Nat :=
  let l := (List.range 34).filter fun e => s.evalServes n e && decide (e % 2 = sp % 2)
  l[(s.sinceL n (s.rxL n).bringT + l.length - 1) % l.length]?

/-! ### Line receive bring-up (Table 2-10) -/

/-- Step 3: ACQUIRE, waiting for light, the loop at row 0 with F at zero. -/
def State.rxStep3 (s : State) (n : Nat) : State :=
  let s := (s.setRxState n 2).wr (LRX.TR_ROW n) 0
  let s := s.modRx n fun r => { r with step := 3, calMeth := 0, f := 0, dwell := 0, goodTicks := 0, lolTicks := 0 }
  if s.rd (FEC.FRAME_STATE n) = 0 then s.wr (FEC.FRAME_STATE n) 1 else s

/-- RXCAL_VALID of a lane for the die's rate mode (R269). -/
def State.rxCalAddr (s : State) (n : Nat) : Nat := if s.rate (dieOfLine n) = 1 then DEV.RXCAL_VALID_L200 else DEV.RXCAL_VALID_L400
def State.txCalAddr (s : State) (n : Nat) : Nat := if s.rate (dieOfLine n) = 1 then DEV.TXCAL_VALID_L200 else DEV.TXCAL_VALID_L400

/-- Step 2: CAL, or step 3 at once where a valid calibration exists. -/
def State.rxStep2 (s : State) (n : Nat) : State :=
  if s.bit (s.rxCalAddr n) n then s.rxStep3 n
  else
    let s := (s.setRxState n 1).inc DEV.CAL_RUN_CNT
    s.modRx n fun r => { r with step := 2, calT := s.nowL n, calMeth := 0, black := 0 }

/-! ### Line transmit bring-up (Table 3-9) -/

/-- Enter FAILED (R110). -/
def State.txFail (s : State) (n why : Nat) : State :=
  ((s.setTxState n 4).modTx n fun t => { t with step := 0 }).lineLog n 0x1101 why true

/-- Step 3: the clock settles for 64 ticks from this boundary. -/
def State.txStep3 (s : State) (n : Nat) : State := s.modTx n fun t => { t with step := 3, step3T := s.nowL n }

/-- Step 2: CAL, or step 3 from the next boundary where a valid calibration exists; a lane with an unusable sub-DAC or a failed sense reference
fails (R99, R267). -/
def State.txStep2 (s : State) (n : Nat) : State :=
  if s.rd (LTX.SUBDAC_HEALTH n) ≠ 15 then s.txFail n 1
  else if s.bit DEV.TXSENSE_FAIL n then s.txFail n 2
  else
    let s := s.setTxState n 1
    if s.bit (s.txCalAddr n) n then s.modTx n fun t => { t with step := 3, step3T := s.later (dieOfLine n) 1 }
    else (s.inc DEV.CAL_RUN_CNT).modTx n fun t => { t with step := 2 }

/-- Step 4: ACTIVE, or SQUELCHED (R106 to R108). -/
def State.txOn (s : State) (n : Nat) : State :=
  let quiet := decide (s.rd (LTX.SQUELCH n) = 1) || s.sys.txDis || s.sys.thermShut
  let s := (s.setTxState n (if quiet then 3 else 2)).wrBit (LTX.FLAGS n) 0 quiet
  (s.modTx n fun t => { t with step := 0, gated := quiet }).pairCheck n

/-- Put a running line output into electrical idle (R106, R107). -/
def State.txSquelch (s : State) (n : Nat) : State :=
  let s := (s.wr (LTX.SQUELCH n) 1).inc (LTX.SQUELCH_CNT n)
  let s := if s.rd (LTX.STATE n) = 2 then s.setTxState n 3 else s
  (s.wrBit (LTX.FLAGS n) 0 true).modTx n fun t => { t with gated := true }

/-! ### Bring-up and shut-down of a line lane -/

/-- A lane comes up with its region's current tap limit, on the initial FFE set of that count where the running set is of
another (R372) or the lane comes up for the first time since the cold start (R205). -/
def State.initFfe (s : State) (n : Nat) (fresh : Bool) : State :=
  let count := min (s.rxL n).nomTaps (s.laneTapLimit n)
  if (s.rxL n).ffeDecl = count ∧ !(fresh && (s.sys.bundle.sect 5 n).isSome) then s.wr (LRX.FFE_TAPS n) count
  else match s.sys.bundle.ffeSet 5 n count with
    | some ws => s.useFfe n count (ws.getD 0 0) ((ws.drop 2).map (· % 1024))
    | none => s.useFfe n count 0 ((List.range 33).map fun k => if k = 6 then 128 else 0)

/-- LANE_UP of a line lane at its boundary (R77, R79, R111). -/
def State.lineBringUp (s : State) (n : Nat) : State :=
  let st := s.rd (LRX.STATE n)
  if st = 4 then
    s.askRelink n 5
  else if s.lineUp n then s
  else
    let s := s.regionUp (regionOfLine n)
    let s := ((s.domUp (3 * n)).domUp (3 * n + 1)).domUp (3 * n + 2)
    let fresh := !(s.tbl n .ctx).powered
    let s := (s.powerTable n .ctx).powerTable n .shp
    let s := if fresh then (s.initTable n .ctx).initTable n .shp else s
    let s := s.modRx n fun r => { r with
      step := 1, bringT := s.nowL n, tracked := false, relinkT := none, dark := 0, lit := 0, lolTicks := 0, lofTicks := 0
      cleanTicks := 0, goodTicks := 0, holdLos := false, holdLol := false, holdPll := false, holdGo := false
      lolByFreq := false, calMeth := 0, sliceCycle := s.nowL n, black := 0
      recipe := { LineRecipe.reset with taps := r.recipe.taps, llrOwed := true } }
    let s := s.modTx n fun t => { t with step := 1, bringT := s.nowL n, hadHost := false, pllLost := false, half := [], coded := [], v1 := []
                                         v2 := [], s1 := [], s2 := [], dac := [], okEvals := 0 }
    let s := (s.idleEvals n).foldl (fun s e => s.evalSpare n e) s
    let s := (((s.wr (LTX.CLK_SRC n) 0).wr (LTX.CLK_FREQ n) 0).initFfe n fresh).initRecord n
    if s.rd (FEC.SCHED_SERVED n) < 8 then (s.modRx n fun r => { r with step := 0 }).rxFail n else s

/-- Clear the per-lane flags of a receive side going DOWN: all but CAL_DEGRADED and the causes of DEGRADED (R288). -/
def State.rxFlagsDown (s : State) (n : Nat) : State :=
  s.wr (LRX.FLAGS n) (s.rd (LRX.FLAGS n) &&& 0x6C)

/-- Both sides of a line lane go DOWN (R110, R152, R219, R472). -/
def State.lineGoDown (s : State) (n : Nat) (name : String := "LANE_DOWN") : State :=
  let s := (s.capTruncate n).capEndEarly n name
  let s := s.endBgCal n
  let s := (s.setRxState n 0).setTxState n 0
  let s := (s.rxFlagsDown n).wr (FEC.FRAME_STATE n) 0
  let s := (s.wrBit (FEC.FLAGS n) 0 false).wrBit (FEC.FLAGS n) 1 false
  let s := s.modRx n fun r => { r with
    step := 0, relinkT := none, tracked := false, holdLos := false, holdLol := false, holdPll := false, holdGo := false
    calMeth := 0, llrs := [], passed := [], passedTwice := [], cands := [], winBlocks := 0, winBad := 0, winDone := none
    outValid := false, late := none, bgCal := none }
  let s := s.modTx n fun t => { t with step := 0, gated := true, pllLost := false, fill := false, half := [], coded := [], dac := [] }
  let s := s.wr (LTX.FLAGS n) (s.rd (LTX.FLAGS n) &&& 0x2C)
  let s := ((s.domOff (3 * n)).domOff (3 * n + 1)).domOff (3 * n + 2)
  let s := (s.lossCheck n).modTap (tapIx (regionOfLine n) true) fun t => { t with
    lanes := modNth [] (modNth [] t.lanes (2 * (n % 2)) fun _ => []) (2 * (n % 2) + 1) fun _ => [] }
  (s.hostClock n).regionDown (regionOfLine n)

/-! ### Host lanes -/

/-- The receive start set of a host lane made active (R183): set 0 is flat; a set of the bundle follows the layout of
kind 0x08; the values of the factory sets 1 to 3 are free (log 173). -/
def State.startSet (s : State) (k : Nat) : State :=
  let p := s.rd (HRX.RX_PRESET k)
  let flat := [0, 0, 0, 0, 0, 64, 0, 0, 0, 0, 0, 0, 0, 0, 0, 0]
  let factory := (List.range 16).map fun i => (Config.startWord p i).toNat % (if i = 1 then 31 else 256)
  let w := if p = 0 then flat else match s.sys.bundle.sect 0x0B (lineOfHost k) with
    | some ws => (ws.drop (16 * (p - 1))).take 16
    | none => factory
  s.useHeq k w

/-- Load a transmit preset (R184). -/
def State.hostPreset (s : State) (k p : Nat) : State := s.wrList (HTX.FIR_TAP k 0) ((s.sys.bundle.preset k p).map (enc 8))

/-- Enter TRAIN (R185): from the start set, or from retained coefficients. -/
def State.hostTrain (s : State) (k : Nat) (fresh : Bool) : State :=
  let s := if fresh then (s.startSet k).hostPreset k (s.rd (HTX.TX_PRESET k)) else s
  let s := (s.setHostState k 2).inc (HRX.LT_CNT k)
  let s := s.wrBit (HTX.FLAGS k) 4 true
  s.modHost k fun h => { h with
    step := 3, stateT := s.nowH k, good := 0, ready := false, partnerReady := false, quiet := 0, answer := .none }

/-- Enter CHECK (R191): the elastic buffer is centred. -/
def State.hostCheck (s : State) (k : Nat) : State :=
  let s := ((s.setHostState k 3).wr (HRX.EBUF_FILL k) 0).wrBit (HTX.FLAGS k) 4 false
  s.modHost k fun h => { h with step := 4, stateT := s.nowH k, good := 0 }

/-- Signal is there: leave WAIT for training or CHECK (Table 6-6, R186). -/
def State.hostLit (s : State) (k : Nat) : State :=
  if s.rd (HRX.LT_EN k) = 1 then s.hostTrain k !(s.hostL k).retained
  else (if (s.hostL k).retained then s else (s.startSet k).hostPreset k (s.rd (HTX.TX_PRESET k))).hostCheck k

/-- Enter WAIT: the transmitter starts with its preset or its retained taps, with training frames if LT_EN = 1 (R186,
Table 6-6). -/
def State.hostWait (s : State) (k : Nat) : State :=
  let s := s.setHostState k 1
  let s := if (s.hostL k).retained then s else s.hostPreset k (s.rd (HTX.TX_PRESET k))
  let s := s.wrBit (HTX.FLAGS k) 4 (decide (s.rd (HRX.LT_EN k) = 1))
  let s := (s.modHost k fun h => { h with step := 2, stateT := s.nowH k }).lossCheck (lineOfHost k)
  let pre := if s.rd (HRX.LT_EN k) = 0 then decide (s.rd (HRX.PRECODE_REQ k) = 1) else false
  let txp := if s.rd (HRX.LT_EN k) = 0 then decide (s.rd (HTX.PRECODE k) = 1) else false
  (s.wrBit (HRX.FLAGS k) 5 pre).wrBit (HTX.FLAGS k) 2 txp

/-- Enter FAILED (R192). -/
def State.hostFail (s : State) (k : Nat) : State :=
  let s := ((s.setHostState k 6).capTruncate (8 + k)).wrBit (HTX.FLAGS k) 4 false
  (s.modHost k fun h => { h with step := 0 }).hostLog k 0x2005 0 true

/-- Enter HOLD (R192); under RETRAIN = 1 it sends training frames (Table 6-3). The line lane's clock source and payload
follow at a tick boundary (R101, R102). -/
def State.hostHold (s : State) (k : Nat) : State :=
  let s := (s.setHostState k 5).capTruncate (8 + k)
  let s := s.wrBit (HTX.FLAGS k) 4 (decide (s.rd (HRX.LT_EN k) = 1 ∧ s.rd (HRX.RETRAIN k) = 1))
  (s.modHost k fun h => { h with step := 0, stateT := s.nowH k, good := 0 }).tapCheck (regionOfHost k) false
/-- Enter HOLD at a tick boundary: the line lane of the pair follows at once. -/
def State.hostHoldNow (s : State) (k : Nat) : State := (s.hostHold k).pairCheck (lineOfHost k)

/-- Is the equaliser master copy of a host lane stale (R284, R286)? -/
def State.hostStale (s : State) (k : Nat) : Bool :=
  let st := s.masterStamp (s.servJ (dieOfHost k)) 8 (16 + k)
  let diff := (sgn 16 st.2 - sgn 16 (s.regionTemp (regionOfHost k))).natAbs
  let age := s.rd DEV.STALE_TICKS
  decide (st.2 ≠ 0x8000 ∧ diff > 32) || decide (age ≠ 0 ∧ s.sinceH k st.1 > age)

/-- Leave HOLD (R192, R286). -/
def State.hostLeave (s : State) (k : Nat) : State :=
  let h := s.hostL k
  let lt := decide (s.rd (HRX.LT_EN k) = 1)
  let stale := s.hostStale k
  let fresh := h.holdCheck || stale
  let s := (s.inc (HRX.RELINK_CNT k)).modHost k fun h => { h with
    holdLos := false, holdLol := false, holdEbuf := false, holdPll := false, holdCheck := false, holdGo := false }
  if lt && (h.holdCheck || stale || !h.trained || decide (s.rd (HRX.RETRAIN k) = 1)) then
    s.hostTrain k (fresh || !h.trained)
  else
    let s := if fresh ∨ !h.retained then s.startSet k else s
    (if h.retained then s else s.hostPreset k (s.rd (HTX.TX_PRESET k))).hostCheck k

/-- Leave HOLD where every cause but a CHECK timeout has cleared and AUTO_RELINK = 1, or a LANE_UP asked for it. -/
def State.tryHost (s : State) (k : Nat) : State :=
  let h := s.hostL k
  if s.rd (HRX.STATE k) = 5 ∧ !s.sys.lanesIdle ∧ !h.holdLos ∧ !h.holdLol ∧ !h.holdEbuf ∧ !h.holdPll ∧
      (h.holdGo ∨ (s.rd (HRX.AUTO_RELINK k) = 1 ∧ !h.holdCheck)) then s.hostLeave k
  else s

/-- LANE_UP of a host lane at its boundary (R192, R196). -/
def State.hostBringUp (s : State) (k : Nat) : State :=
  if s.rd (HRX.STATE k) = 5 then (s.modHost k fun h => { h with holdGo := true }).tryHost k
  else if s.hostUp k then s
  else
    let s := (s.regionUp (regionOfHost k)).domUp (40 + k)
    let s := s.modHost k fun h => { h with
      step := 1, bringT := s.nowH k, stateT := s.nowH k, dark := 0, lit := 0, good := 0, slips := false, holdLos := false
      holdLol := false, holdEbuf := false, holdPll := false, holdCheck := false, holdGo := false, trained := false
      lineSeen := decide (s.rd (LRX.STATE (lineOfHost k)) = 3), clean := 0 }
    ((s.wr (HTX.CLK_SRC k) 0).wr (HTX.CLK_FREQ k) 0).htxFlags k

/-- A host lane goes DOWN. -/
def State.hostGoDown (s : State) (k : Nat) : State :=
  let s := (s.setHostState k 0).capTruncate (8 + k)
  let s := (s.wr (HRX.FLAGS k) 0).wr (HTX.FLAGS k) 0
  let s := s.modHost k fun h => { h with step := 0, trained := false, toSend := [], sent := [] }
  let s := (s.tapCheck (regionOfHost k) false).modTap (tapIx (regionOfHost k) false) fun t => { t with
    lanes := modNth [] t.lanes (k % 4) fun _ => [] }
  ((s.domOff (40 + k)).pairCheck (lineOfHost k)).regionDown (regionOfHost k)

/-! ### Domains leaving reset or failing -/

/-- What a lane does when a domain of it leaves reset (Tables 2-10, 3-9, 6-6). -/
def State.ownerReady (s : State) (i : Nat) : State :=
  if i < 24 then
    let n := i / 3
    if i % 3 = 2 then (if (s.txL n).step = 1 then (s.wr (PWR.CLK_STATE (8 + n)) 1).txStep2 n else s)
    else if (s.rxL n).step = 1 ∧ s.domReady (3 * n) ∧ s.domReady (3 * n + 1) then
      (s.wr (PWR.CLK_STATE n) 1).rxStep2 n
    else s
  else if 40 ≤ i ∧ i < 56 then
    (if (s.hostL (i - 40)).step = 1 then (s.wr (PWR.CLK_STATE (16 + (i - 40))) 1).hostWait (i - 40) else s)
  else if 72 ≤ i ∧ i < 76 then s.wr (PWR.CLK_STATE (32 + (i - 72))) 1
  else s

/-- What the owner of a domain does when the domain fails (R44, R383). -/
def State.ownerFails (s : State) (i : Nat) : State :=
  if i < 24 then
    let n := i / 3
    if i % 3 = 2 then (if (s.txL n).step = 1 then s.txFail n 0 else s)
    else if (s.rxL n).step = 1 then s.rxFail n else s
  else if 40 ≤ i ∧ i < 56 then (if (s.hostL (i - 40)).step = 1 then s.hostFail (i - 40) else s)
  else s

/-- The PLL or clock unit a domain's reset waits for (R44): PLL index, none for the die clock units. -/
def domPll (i : Nat) : Option Nat :=
  if i < 24 then some (2 * regionOfLine (i / 3))
  else if 40 ≤ i ∧ i < 56 then some (2 * regionOfHost (i - 40) + 1)
  else if 72 ≤ i ∧ i < 76 then some (2 * (i - 72) + 1)
  else none
/-- Level of a domain (Table 14-1). -/
def domLevel (i : Nat) : Nat := if i < 72 then 1 else if i < 80 then 2 else if i < 84 then 3 else if i < 94 then 4 else 5

/-- A domain that does not leave reset (R44, R383): FAILED, logged, FAULT_N. -/
def State.domFails (s : State) (i refuser : Nat) : State :=
  let s := (s.wr (PWR.DOM_STATE i) 3).modSys fun y => { y with resetting := y.resetting.filter fun j => decide (j ≠ i) }
  let s := s.faultOn 5
  let s := s.logEv { level := domLevel i, fault := true, inst := i, code := 0x5007, detail := refuser * 256 + i }
  s.ownerFails i

end Sys2Proof.Machine
end

