-- ==== Sys2Proof/Machine/Domains.lean ====
section
/-!
DEFINITION. Domains leaving reset, region PLLs, the die-to-die bridge (R43 to R45, R77, R110, R192, R290, R383, R478).
-/

namespace Sys2Proof.Machine

/-! ### Domains (R44, R383) -/

/-- Is the clock source of a domain locked: its region PLL, or the die clock units? -/
def State.domLocked (s : State) (i : Nat) : Bool :=
  match domPll i with
  | some p => (s.pll p).locked
  | none => s.coreOn

/-- DOMAIN_RESET_RELEASE (R44): a domain leaves reset once its clock source is locked. -/
def execDomainResetRelease (dom : Fin 96) (s : State) : Result := finish s <|
  let i := dom.val
  if s.sys.resetting.contains i ∧ s.rd (PWR.DOM_STATE i) = 1 ∧ s.domLocked i then
    .next ((s.modSys fun y => { y with resetting := y.resetting.filter fun j => decide (j ≠ i) }).ownerReady i)
  else .next s

/-- Refuser code of a domain's clock source (Table 14-5). -/
def lockRefuser (i : Nat) : Nat := match domPll i with
  | some p => 0x10 + p
  | none => 0x18

/-- DOMAIN_LOCK_TIMEOUT (R44): no lock within 2 ms. -/
def execDomainLockTimeout (dom : Fin 96) (s : State) : Result := finish s <|
  let i := dom.val
  if s.sys.resetting.contains i ∧ s.rd (PWR.DOM_STATE i) = 1 ∧ !s.domLocked i then
    let s := match domPll i with
      | some p => s.modPll p fun q => { q with relocking := false }
      | none => s
    .next (s.domFails i (lockRefuser i))
  else .next s

/-- DOMAIN_SUPPLY_TIMEOUT (R383): the internal supply does not reach its level within 50 µs. -/
def execDomainSupplyTimeout (dom : Fin 96) (s : State) : Result := finish s <|
  if s.sys.resetting.contains dom.val ∧ s.rd (PWR.DOM_STATE dom.val) = 1 then .next (s.domFails dom.val 0) else .next s

/-! ### Region PLLs (R45) -/

/-- What the loss of a PLL of its region does to a line lane (R45, R77, R110): the receive side holds, a calibration is to
be repeated (R290), and the transmit side fails. A LOS already declared is a cause of the HOLD too. -/
def State.lineLoses (s : State) (n : Nat) : State :=
  let st := s.rd (LRX.STATE n)
  let s := if st = 1 ∨ st = 2 ∨ st = 3 ∨ st = 4 then
      (let los := s.bit (LRX.FLAGS n) 0
       let s := s.modRx n fun r => { r with holdPll := true, holdLos := los, calMeth := if st = 1 then 4 else r.calMeth }
       if st = 4 then s else s.rxHold n)
    else s
  let tx := s.rd (LTX.STATE n)
  if tx = 1 ∨ tx = 2 ∨ tx = 3 then (s.modTx n fun t => { t with pllLost := true, gated := true }).txFail n 0 else s

/-- What the loss of a PLL of its region does to a host lane. -/
def State.hostLoses (s : State) (k : Nat) : State :=
  let st := s.rd (HRX.STATE k)
  if 1 ≤ st ∧ st ≤ 5 then
    let los := s.bit (HRX.FLAGS k) 0
    let s := s.modHost k fun h => { h with holdPll := true, holdLos := los }
    if st = 5 then s else s.hostHold k
  else s

/-- A region PLL loses lock (R45, steps 1 and 2): every cluster of the region reacts (Table 1-8). -/
def State.pllLoses (s : State) (r : Nat) (host : Bool) : State :=
  let p := 2 * r + host.toNat
  if !(s.pll p).locked then s
  else
    let s := s.modPll p fun _ => { Pll.reset with lost := true, relocking := true }
    let s := (List.range 4).foldl (fun s j => s.hostLoses (4 * r + j)) ((s.lineLoses (2 * r)).lineLoses (2 * r + 1))
    s.logEv { level := 2, irq := true, die1 := decide (r ≥ 2), inst := r, code := 0x5008, detail := 0x10 + p }

/-- REGION_PLL_LOCK_LOSS (R45). -/
def execRegionPllLockLoss (r : Region) (host : Bool) (s : State) : Result := finish s <|
  .next (if s.rd PWR.STATE < 2 then s.pllLoses r.val host else s)

/-- Are both PLLs of a region locked? -/
def State.regionLocked (s : State) (r : Nat) : Bool := (s.pll (2 * r)).locked && (s.pll (2 * r + 1)).locked

/-- What the relock of its region gives a line lane: a relink where AUTO_RELINK = 1 (R77), or the calibration again; the
transmit side repeats its bring-up from step 1 of Table 3-9, its clock as it was (log 163). -/
def State.lineRelocks (s : State) (n : Nat) : State :=
  let r := s.rxL n
  let s := if s.rd (LRX.STATE n) = 4 ∧ r.holdPll then
      (let s := s.modRx n fun r => { r with holdPll := false }
       if r.calMeth = 4 then (s.modRx n fun r => { r with bringT := s.nowL n, holdLos := false, holdLol := false }).rxStep2 n
       else s.tryRelink n 2)
    else s
  if s.rd (LTX.STATE n) = 4 ∧ (s.txL n).pllLost then
    (s.modTx n fun t => { t with pllLost := false, step := 1, bringT := s.nowL n, half := [], coded := [], v1 := [], v2 := []
                                 s1 := [], s2 := [], dac := [] }).domReset (3 * n + 2)
  else s

/-- REGION_PLL_RELOCK (R45, step 3): the PLL locks; its domain is no longer failed. -/
def execRegionPllRelock (r : Region) (host : Bool) (s : State) : Result := finish s <|
  let p := 2 * r.val + host.toNat
  if !(s.pll p).relocking then .next s
  else
    let s := s.modPll p fun _ => { Pll.reset with locked := true }
    let s := if s.rd (PWR.DOM_STATE (76 + r.val)) = 3 ∧ !(s.pll (2 * r.val)).failed ∧ !(s.pll (2 * r.val + 1)).failed then
      s.setDom (76 + r.val) 1 else s
    .next (if s.regionLocked r.val then
      (List.range 4).foldl (fun s j =>
        (s.modHost (4 * r.val + j) fun h => { h with holdPll := false }).tryHost (4 * r.val + j))
        ((s.lineRelocks (2 * r.val)).lineRelocks (2 * r.val + 1))
    else s)

/-- Every cluster of a region enters FAILED (R45, step 5). -/
def State.regionFails (s : State) (r : Nat) : State :=
  let s := [2 * r, 2 * r + 1].foldl (fun s n =>
    let s := if s.rd (LRX.STATE n) = 5 then s else s.rxFail n
    let s := if s.rd (LTX.STATE n) = 4 then s else s.txFail n 0
    s.modTx n fun t => { t with pllLost := false, gated := true }) s
  (List.range 4).foldl (fun s j => if s.rd (HRX.STATE (4 * r + j)) = 6 then s else s.hostFail (4 * r + j)) s

/-- RELOCK_TIMEOUT (R45, steps 4 and 5): 2 ms without lock. -/
def execRelockTimeout (r : Region) (host : Bool) (s : State) : Result := finish s <|
  let p := 2 * r.val + host.toNat
  let q := s.pll p
  if !q.lost ∨ !q.relocking ∨ q.waiting then .next s
  else
    let s := s.inc (PWR.REFUSE_CNT (0x10 + p))
    if q.tries < s.rd PWR.WAKE_RETRIES then
      .next (s.modPll p fun q => { q with tries := q.tries + 1, relocking := false, waiting := true })
    else
      let s := s.modPll p fun q => { q with relocking := false, failed := true }
      let s := ((s.wr (PWR.DOM_STATE (76 + r.val)) 3).faultOn 5).regionFails r.val
      .next (s.logEv { level := 2, fault := true, die1 := decide (r.val ≥ 2), inst := r.val, code := 0x5009,
                       detail := 0x10 + p })

/-- RELOCK_RETRY (R45, step 4): WAKE_RETRY_MS has passed. -/
def execRelockRetry (r : Region) (host : Bool) (s : State) : Result := finish s <|
  .next (s.modPll (2 * r.val + host.toNat) fun q => if q.waiting then { q with waiting := false, relocking := true } else q)

/-! ### Bridge (R43) -/

/-- BRIDGE_LOSS (R43): die 1 goes on by itself; its log entries are queued (R478). -/
def execBridgeLoss (s : State) : Result := finish s <|
  if s.sys.bridgeLost then .next s
  else
    let s := (s.faultOn 2).logEv { level := 3, fault := true, code := 0x0104 }
    .next ({ s with tick1 := some s.tickno }.modSys fun y => { y with bridgeLost := true })

/-- Does a master copy differ from the active bank (R43)? -/
def State.masterDiffers (s : State) (n : Nat) (t : Tbl) : Bool :=
  let w := s.activeWords n t
  (List.range t.size).any fun a => decide (s.masterEntry t.kind n a ≠ w.getD a 0)

/-- The small sets in service on a target, as the words of their master copies by kind (R39, R43). -/
def State.smallSets (s : State) (tgt : Nat) : List (Nat × List Nat) :=
  if tgt < 8 then [3, 4, 5, 6].map fun k => (k, s.runWords k tgt) else [(8, s.runWords 8 tgt)]
/-- Rebuild the master copies of a target's small sets that differ from the sets in service (R43). -/
def State.checkSmall (s : State) (d tgt : Nat) : State :=
  (s.smallSets tgt).foldl (fun s x =>
    let a := (masterArea x.1 tgt).1
    let dm := (s.jn d).dm
    if (List.range x.2.length).all fun i => decide (dmHalf dm (a + 2 * i) = x.2.getD i 0) then s
    else s.rebuildSmall d tgt x.1) s

/-- BRIDGE_RECOVERY (R43, R478): die 1 is back on die 0's count (log 158), its held entries are written, its master
copies checked against what is in service, and where they differ rebuilt. -/
def execBridgeRecovery (s : State) : Result := finish s <|
  if !s.sys.bridgeLost then .next s
  else
    let q := s.die1Log
    let s := ({ s with die1Log := [], tick1 := none }.wrBit OBS.FLAGS 2 false).modSys fun y => { y with bridgeLost := false }
    let s := q.foldl (fun s e => s.logNow e.tick
      { level := e.level, irq := e.irq, fault := e.fault, die1 := true, inst := e.inst, code := e.code, detail := e.detail
        data := e.data }) s
    let s := (s.faultOff 2).logEv { level := 3, code := 0x0105 }
    let d := s.servJ 1
    let s := (List.range 4).foldl (fun s j =>
      let n := 4 + j
      ([Tbl.ctx, Tbl.shp].foldl (fun s t =>
        if (s.tbl n t).powered ∧ s.masterDiffers n t then s.rebuildMaster d n t else s) s).checkSmall d n) s
    .next ((List.range 8).foldl (fun s j => s.checkSmall d (24 + j)) s)

end Sys2Proof.Machine
end

