-- ==== Sys2Proof/Machine/Hk.lean ====
section
/-!
DEFINITION. The housekeeping converter and the bias outputs: conversion slots, passes, triggers, slew updates, span
switches, short circuits, TX_DIS (R107, R336 to R358).
-/

namespace Sys2Proof.Machine

/-! ### System calibration (R351) -/

/-- The mean of the conversions, to the nearest 1/16 code (log 14). -/
def CalRun.mean (c : CalRun) : Nat := (c.sum + c.count / 2) / max 1 c.count
/-- Is the RMS noise above 64 (4 codes)? -/
def CalRun.noisy (c : CalRun) : Bool := decide (c.count * c.sumSq > c.sum * c.sum + (64 * c.count) ^ 2)
/-- The RMS noise, rounded down (log 14). -/
def CalRun.noise (c : CalRun) : Nat := Nat.sqrt ((c.count * c.sumSq - c.sum * c.sum) / max 1 (c.count * c.count))

/-- Points held, as the reply gives them. -/
def State.points (s : State) : Nat := s.sys.hk.zero.isSome.toNat + 2 * s.sys.hk.full.isSome.toNat

/-- The conversions of a point are complete: it is held, or refused. -/
def State.pointDone (s : State) (c : CalRun) : State :=
  let s := s.modHk fun h => { h with cal := none }
  let m := c.mean
  let z := s.sys.hk.zero
  let name : Option String :=
    if c.step = 0 then
      (if ((m : Int) - 2048).natAbs > 1024 then some "ZERO_RANGE" else if c.noisy then some "NOISE" else none)
    else if c.noisy then some "NOISE"
    else if z.any fun z => decide (m < z + 32768) then some "SPAN" else none
  match s.findOp 0x31 0 with
  | none => s
  | some o =>
    match name with
    | some nm => (s.refuse o.ref .precondition nm).endOp o.ref.rid
    | none =>
      let s := s.modHk fun h => if c.step = 0 then { h with zero := some m } else { h with full := some (m, c.declared) }
      (s.ok o.ref (le 2 m ++ le 2 c.noise ++ [byteOf s.points])).endOp o.ref.rid

/-- A calibration conversion (R352). -/
def State.calConv (s : State) (x : Nat) : State :=
  match s.sys.hk.cal with
  | none => s
  | some c =>
    if s.sys.hk.start ∧ s.sys.hk.quota = 0 then s
    else
      let c := { c with count := c.count + 1, sum := c.sum + x, sumSq := c.sumSq + x * x }
      let s := s.modHk fun h => { h with cal := some c, quota := h.quota - 1 }
      if c.count = 1024 then s.pointDone c else s

/-! ### Conversions and passes -/

/-- The reference clock runs; without it conversion slots stop and the bias outputs keep their codes (R494). -/
def State.refOn (s : State) : Bool := decide (s.rd (PWR.CLK_STATE 40) = 1)

/-- CONVERSION_SLOT (R336, R339): `x` is the factory-trimmed reading of the input the slot converts. -/
def execConversionSlot (x : BitVec 16) (s : State) : Result := finish s <|
  if !s.adcOn ∨ !s.refOn then .next s
  else match s.sys.hk.pass with
    | none => .next (s.calConv x.toNat)
    | some k =>
      let s := s.stepResult k x.toNat
      .next (if k + 1 < s.sys.hk.steps.length then s.modHk fun h => { h with pass := some (k + 1) } else s.passEnd)

/-- PASS_START (R341): a trigger waits, or the sequencer runs free. -/
def execPassStart (s : State) : Result := finish s <|
  let h := s.sys.hk
  if s.adcOn ∧ h.pass.isNone ∧ s.rd HK.SEQ_TRIG ≠ 0 ∧ (h.start ∨ s.rd HK.SEQ_TRIG = 1) then .next s.passBegin else .next s

/-- SEQ_TIMER_TRIGGER (R340). -/
def execSeqTimerTrigger (s : State) : Result := finish s <|
  .next (if s.rd HK.SEQ_TRIG = 2 ∧ s.adcOn then s.hkTrigger else s)
/-- Have SEQ_TICKS boundaries passed since the last tick trigger? Which boundary is the first is open (log 189). -/
def State.tickTrigDue (s : State) : Bool := s.sys.hk.tickTrig.all fun t => decide (s.rd HK.SEQ_TICKS ≤ ticksSince s.tickno t)
/-- SEQ_TICK_TRIGGER (R340). -/
def execSeqTickTrigger (s : State) : Result := finish s <|
  .next (if s.rd HK.SEQ_TRIG = 3 ∧ s.adcOn ∧ s.tickTrigDue then (s.modHk fun h => { h with tickTrig := some s.tickno }).hkTrigger
    else s)

/-! ### Bias outputs -/

/-- SLEW_UPDATE (R355, R356). -/
def execSlewUpdate (c : Chan) (s : State) : Result := finish s <|
  let n := c.val
  if s.bit BDAC.HOLD n ∨ !s.dacOn ∨ !s.refOn then .next s
  else
    let now := s.rd (BDAC.OUT_CODE n)
    let b := s.bias n
    .next (match b.phase with
      | some .wait => s
      | some .down =>
        let v := slewCode now 0 b.step
        let s := s.wr (BDAC.OUT_CODE n) v
        if v = 0 then (s.wr (BDAC.OUT_SPAN n) (s.rd (BDAC.SPAN n))).modBias n fun b => { b with phase := some .wait } else s
      | some .up =>
        let v := slewCode now (s.rd (BDAC.CODE n)) (s.rd (BDAC.SLEW_STEP n))
        let s := s.wr (BDAC.OUT_CODE n) v
        if v = s.rd (BDAC.CODE n) then s.modBias n fun b => { b with phase := none } else s
      | none => s.wr (BDAC.OUT_CODE n) (slewCode now (s.rd (BDAC.CODE n)) (s.rd (BDAC.SLEW_STEP n))))

/-- SPAN_SWITCH_WAIT_END (R356). -/
def execSpanSwitchWaitEnd (c : Chan) (s : State) : Result := finish s <|
  .next (if (s.bias c.val).phase = some .wait then s.modBias c.val fun b => { b with phase := some .up } else s)

/-- A release that takes effect at this very boundary and has not yet been applied loses a channel (Table 12-9). -/
def State.unrelease (s : State) (c : Nat) : State :=
  { s with live := s.live.map fun w =>
      if w.addr = BDAC.RELEASE ∧ w.due = s.tickno ∧ w.value.testBit c then { w with value := w.value - 2 ^ c } else w }

/-- SHORT_CIRCUIT_DETECT (R358). -/
def execShortCircuitDetect (c : Chan) (s : State) : Result := finish s <|
  if !s.dacOn then .next s
  else
    let s := (s.wrBit BDAC.SC_STAT c.val true).inc (BDAC.SC_CNT c.val)
    let s := s.logEv { level := 3, irq := true, inst := c.val, code := 0x4101, detail := c.val }
    .next (if s.bit BDAC.SC_SAFE c.val then (s.biasHold c.val).unrelease c.val else s)

/-! ### TX_DIS (R107) -/

/-- A live write or a staged value no longer applies to a field that hardware has set. -/
def State.dropLive (s : State) (p : Nat → Bool) : State := { s with live := s.live.filter fun w => !p w.addr }

/-- Is an address LTX.SQUELCH of a lane? -/
def isLtxSquelch (a : Nat) : Bool := decide (blkOf a = 0x11 ∧ offOf a = 0x0012)

/-- TX_DIS_ASSERT (R107): every line output is gated and squelched, every bias output held. -/
def execTxDisAssert (s : State) : Result := finish s <|
  if s.sys.txDis then .next s
  else
    let s := s.modSys fun y => { y with txDis := true }
    let s := (s.dropLive isLtxSquelch).biasHolds (2 ^ 24 - 1)
    .next ((List.range 8).foldl (fun s n => (s.txSquelch n).wrBit (LTX.FLAGS n) 5 true) s)

/-- TX_DIS_DEASSERT (R107): nothing is released. -/
def execTxDisDeassert (s : State) : Result := finish s <|
  let s := s.modSys fun y => { y with txDis := false }
  .next ((List.range 8).foldl (fun s n => s.wrBit (LTX.FLAGS n) 5 false) s)

end Sys2Proof.Machine
end

