-- ==== Sys2Proof/Machine/Request.lean ====
section
/-!
DEFINITION. Requests and replies: the checks every request passes, the reply queues and the packets of Tables 10-1 to
10-3 (R292 to R303, R312, R318, R420).
-/

namespace Sys2Proof.Machine

/-! ### Packets -/

/-- The opcodes of Table 10-4. -/
def opcodes : List Nat :=
  [0x01, 0x02, 0x10, 0x11, 0x12, 0x13, 0x18, 0x19, 0x20, 0x21, 0x30, 0x31, 0x40, 0x41, 0x50, 0x51, 0x52, 0x60, 0x61,
    0x70, 0x71, 0x78, 0x7C, 0x7E, 0x7F]

/-- The name a refusal carries where its rule gives none (R293). -/
def Status.name : Status → String
  | .ok => "OK"
  | .accepted => "ACCEPTED"
  | .badOpcode => "BAD_OPCODE"
  | .badLength => "BAD_LENGTH"
  | .badCrc => "BAD_CRC"
  | .badAddress => "BAD_ADDRESS"
  | .conflict => "CONFLICT"
  | .runLocked => "RUN_LOCKED"
  | .precondition => "PRECONDITION"
  | .truncated => "TRUNCATED"
  | .busy => "BUSY"
  | .timeout => "TIMEOUT"
  | .denied => "DENIED"
  | .hwFault => "HW_FAULT"

/-- The payload of a reply; an error payload as Table 10-3. -/
def Body.bytes : Body → List Byte
  | .data bs => bs
  | .err nm addr detail => nameBytes 16 nm ++ le 4 addr ++ le 4 detail

/-- A packet with its CRC-16. -/
def sealed (bs : List Byte) : List Byte := bs ++ le 2 (crc16 bs).toNat

/-- A reply packet (Table 10-2). -/
def Reply.bytes (r : Reply) : List Byte :=
  let p := r.body.bytes
  sealed ([0xA8, byteOf r.ref.op, r.ref.tag, byteOf r.status.code] ++ le 2 p.length ++ le 2 r.tick16 ++ p)

/-! ### Short refusals -/

/-- A refusal named by its status (R293). -/
def State.bad (s : State) (r : ReqRef) (st : Status) (addr : Nat := 0xFFFFFFFF) : State := s.refuse r st st.name addr

/-- Is this parameter length among those the opcode allows (R304)? -/
def okLen (ps : List Byte) (ls : List Nat) : Bool := ls.contains ps.length

/-! ### Taking a request in (R294, R295, R303, R312) -/

/-- The reference of a request under the next serial number. -/
def State.refFor (s : State) (op : Nat) (r : Request) : ReqRef := ⟨s.nextRid, r.via, r.tag, op, r.flags.getLsbD 0, []⟩

/-- Opcodes served after a shutdown (R312). -/
def shutOk (op : Nat) : Bool := decide (op = 0x01 ∨ op = 0x02 ∨ op = 0x13 ∨ op = 0x7E)
/-- Requests the recovery service of the boot ROM serves (R420). -/
def recoveryOk (op : Nat) (ps : List Byte) : Bool :=
  decide (op = 0x01 ∨ op = 0x02 ∨ op = 0x7E ∨ (op = 0x70 ∧ getLe ps 0 1 = 0) ∨ (op = 0x71 ∧ getLe ps 1 1 = 1))

/-- The services of the opcodes: request, parameters, state. -/
abbrev Service := ReqRef → List Byte → State → State

/-- Step 7 and 8 of R294: the refusals of the device state, then the opcode's service. A request the management
controller cannot serve now waits (R301). -/
def State.dispatch (s : State) (r : ReqRef) (flags : Byte) (ps : List Byte) (svc : Service) : State :=
  if s.rd PWR.STATE ≥ 2 ∧ r.op ≠ 0x41 then s.refuse r .busy "ASLEEP" 0xFFFFFFFF (s.rd PWR.STATE)
  else if s.sys.mcState = 6 ∧ !shutOk r.op then s.refuse r .precondition "SHUT"
  else if s.sys.recovery ∧ !recoveryOk r.op ps then s.refuse r .precondition "RECOVERY"
  else if s.sys.mcState ≠ 2 ∧ s.sys.mcState ≠ 6 ∧ !s.sys.recovery ∧ s.rd PWR.STATE < 2 then
    s.modTrans r.via fun t => { t with waiting := t.waiting ++ [⟨r, flags, ps, false⟩] }
  else svc r ps s

/-- The request is outstanding from now on (R295). -/
def State.hold (s : State) (r : ReqRef) : State :=
  { s.modTrans r.via fun t => { t with outstanding := t.outstanding ++ [r] } with nextRid := s.nextRid + 1 }

/-- Has the transport room for one more request (R295)? -/
def State.hasRoom (s : State) (v : Via) : Bool := decide ((s.trans v).outstanding.length < 4)

/-- Answer a request at once that fails one of the checks of R294. -/
def State.reject (s : State) (op : Nat) (r : Request) (st : Status) : State :=
  let ref := s.refFor op r
  if s.hasRoom r.via then (s.hold ref).bad ref st
  else { s with nextRid := s.nextRid + 1 }.refuse ref .busy "REQ_FULL"

/-- Keep a request until the reply queue has room (R321). -/
def State.park (s : State) (op : Nat) (r : Request) : State :=
  let w : Waiting := ⟨s.refFor op r, r.flags, r.params, true⟩
  { s.modTrans r.via fun t => { t with waiting := t.waiting ++ [w] } with nextRid := s.nextRid + 1 }

/-- Take a request in that has a reply place: room, tag, header, then `fwd` for a forwarded request (R297) or the
opcode's service (R294, R295). -/
def State.takeIn (s : State) (op : Nat) (r : Request) (svc fwd : Service) : State :=
  let ref := s.refFor op r
  if !s.hasRoom r.via then { s with nextRid := s.nextRid + 1 }.refuse ref .busy "REQ_FULL"
  else
    let dup := (s.trans r.via).outstanding.any fun x => decide (x.tag = r.tag)
    let s := s.hold ref
    if dup then s.refuse ref .denied "TAG_IN_USE"
    else if bits r.flags.toNat 6 1 ≠ 0 then s.bad ref .badAddress
    else if r.flags.getLsbD 7 then
      (if s.rd DEV.ROLE ≠ 1 then s.refuse ref .denied "NOT_RIDGE" else s.dispatch ref r.flags r.params fwd)
    else s.dispatch ref r.flags r.params svc

/-- Replies a queue holds (R295). -/
def replyPlaces : Nat := 8

/-- A request has arrived whose sync byte, length, CRC and opcode are right. -/
def State.receive (s : State) (op : Nat) (r : Request) (svc fwd : Service) : State :=
  if replyPlaces ≤ (s.trans r.via).replies.length then s.park op r else s.takeIn op r svc fwd

/-! ### Reading replies (R295, R298) -/

/-- The interrupt of unread NOTIFY replies (R482). -/
def State.notifyCheck (s : State) : State :=
  let any := fun (t : Transport) => t.replies.any fun x => x.ref.notify
  s.wrBit OBS.IRQ_STAT 0 (any s.spi || any s.i2c)

/-- Read the head reply; a whole read removes it, and with a final reply the request ends. With nothing queued, zero
bytes come. -/
def State.readReply (s : State) (v : Via) (whole : Bool) : State :=
  match (s.trans v).replies with
  | [] => s.modTrans v fun t => { t with out := [0] }
  | x :: rest =>
    let s := s.modTrans v fun t => { t with out := x.bytes }
    if !whole then s
    else
      (s.modTrans v fun t => { t with
        replies := rest
        outstanding := if x.final then t.outstanding.filter fun o => decide (o.rid ≠ x.ref.rid) else t.outstanding
        }).notifyCheck

/-! ### Requests answered at a controller restart (R318) -/

/-- Every request taken into service without its final reply is answered HW_FAULT, NAME MC_RESTART; those named in `keep`
are not, nor those that wait. -/
def State.answerAll (s : State) (keep : List Nat) : State :=
  [Via.spi, Via.i2c, Via.tenon].foldl (fun s v =>
    let t := s.trans v
    let open_ := t.outstanding.filter fun o =>
      !keep.contains o.rid && !t.waiting.any (fun w => decide (w.ref.rid = o.rid)) &&
      !t.replies.any (fun x => x.final && decide (x.ref.rid = o.rid))
    open_.foldl (fun s o => s.refuse o .hwFault "MC_RESTART") s) s

end Sys2Proof.Machine
end

