-- ==== Sys2Proof/Machine/Thermal.lean ====
section
/-!
DEFINITION. Thermal management: sensor samples, warnings, throttle levels, shutdown (R108, R365 to R379).
-/

namespace Sys2Proof.Machine

/-- The thermal domain is powered (Table 14-1). -/
def State.thermOn (s : State) : Bool := decide (s.rd (PWR.DOM_STATE 89) = 1)

/-! ### Sensors (R365, R366) -/

/-- A sensor reading, 0.25 °C. -/
def State.sensor (s : State) (k : Nat) : Int := s.rdS (THM.SENSOR k)
/-- Working sensors of a list. -/
def State.working (s : State) (l : List Nat) : List Nat := l.filter fun k => !s.bit THM.SENSOR_FAIL k
/-- Sensors of a die, and of a region (Table 13-1). -/
def dieSensors (d : Nat) : List Nat := (List.range 8).map (8 * d + ·)
def regionSensors (r : Nat) : List Nat := [0, 1, 2].map (8 * (r / 2) + 3 * (r % 2) + ·)
/-- The highest of a list of readings. -/
def hottest : List Int → Option Int
  | [] => none
  | x :: xs => some (xs.foldl max x)
/-- Insert into a rising list. -/
def insertUp (x : Int) : List Int → List Int
  | [] => [x]
  | y :: ys => if x ≤ y then x :: y :: ys else y :: insertUp x ys
/-- The median of readings; of an even number, the mean of the middle two (log 16). -/
def median (xs : List Int) : Int :=
  let l := xs.foldr insertUp []
  if l.length % 2 = 1 then l.getD (l.length / 2) 0 else (l.getD (l.length / 2 - 1) 0 + l.getD (l.length / 2) 0) / 2

/-- Mark a sensor failed. -/
def State.sensorFails (s : State) (k : Nat) : State :=
  (s.wrBit THM.SENSOR_FAIL k true).logEv { level := 3, die1 := decide (k ≥ 8), inst := k, code := 0x4205 }

/-- Judge the sensors of a die: a reading out of range fails at once, three differences from the median in a row fail. -/
def State.judgeSensors (s : State) (d : Nat) : State :=
  let s := (s.working (dieSensors d)).foldl (fun s k =>
    if s.sensor k < -200 ∨ 600 < s.sensor k then s.sensorFails k else s) s
  let w := s.working (dieSensors d)
  w.foldl (fun (t : State) k =>
    let others := (w.filter fun j => decide (j ≠ k)).map s.sensor
    let off := if others ≠ [] ∧ (s.sensor k - median others).natAbs > 60 then s.sys.therm.off.getD k 0 + 1 else 0
    let t := t.modTherm fun h => { h with off := modNth 0 h.off k fun _ => off }
    if off ≥ 3 then t.sensorFails k else t) s

/-- The temperature of a region: its own working sensors, else its die's; none where the die has none. -/
def State.regionReading (s : State) (r : Nat) : Option Int :=
  match hottest ((s.working (regionSensors r)).map s.sensor) with
  | some t => some t
  | none => hottest ((s.working (dieSensors (r / 2))).map s.sensor)

/-- RG_TEMP and RG_RATE of a region at a sample (R365, R371); the rate is taken over the last second, 0.01 °C/s. -/
def State.regionSample (s : State) (r : Nat) : State :=
  match s.regionReading r with
  | none => s
  | some t =>
    let sec := s.ticksPerSecond
    let past := s.sys.therm.past.getD r []
    let old := (past.filter fun x => decide (sec ≤ ticksSince s.tickno x.1)).getLast?
    let rate : Int := match old with
      | some x => (t - x.2) * 25
      | none => 0
    let keep := past.filter fun x => decide (ticksSince s.tickno x.1 < sec) || decide (old = some x)
    let s := s.modTherm fun h => { h with past := modNth [] h.past r fun _ => keep ++ [(s.tickno, t)] }
    (s.wr (THM.RG_TEMP r) (enc 16 t)).wr (THM.RG_RATE r) (enc 16 (sat 16 rate))

/-! ### Reference trims (R377) -/

/-- The sensor nearest to a reference (Table 13-1): the front end of its lane, or S7 by the housekeeping converter and the
bandgap. -/
def refSensor (i : Nat) : Nat :=
  if 2 ≤ i ∧ i < 18 then (let n := (i - 2) % 8; 8 * (n / 4) + 3 * (n / 2 % 2) + n % 2) else 7
/-- Its reading; a failed sensor is replaced by the temperature of the region, or of the die (log 188). -/
def State.refReading (s : State) (i : Nat) : Option Int :=
  let k := refSensor i
  if !s.bit THM.SENSOR_FAIL k then some (s.sensor k)
  else if 2 ≤ i ∧ i < 18 then s.regionReading (regionOfLine ((i - 2) % 8))
  else hottest ((s.working (dieSensors 0)).map s.sensor)
/-- A sample of die `d` corrects the references by its sensors (R377): each by at most one step towards what its drift asks
for, the housekeeping converter's from the next pass, the others' from boundary D on. -/
def State.trimRefs (s : State) (d : Nat) : State :=
  ((List.range 19).filter fun i => decide (refSensor i / 8 = d)).foldl (fun s i =>
    match s.refReading i with
    | none => s
    | some t => s.modTherm fun h => { h with trims := modNth ⟨0, none⟩ h.trims i fun r =>
        let v := oneStep ((r.next.map (·.1)).getD r.now) (Config.drift i t)
        { r with next := some (v, if i < 2 then none else some (s.later d 1)) } }) s

/-! ### Warnings and throttle targets (R368 to R371) -/

/-- A signed threshold field in 0.25 °C. -/
def State.thr (s : State) (a : Nat) : Int := 4 * sgn 8 (s.rd a)
def State.rgTemp (s : State) (r : Nat) : Int := s.rdS (THM.RG_TEMP r)
def State.rgRate (s : State) (r : Nat) : Int := s.rdS (THM.RG_RATE r)
def State.hyst (s : State) : Int := 4 * (s.rd THM.HYST : Int)

/-- The warning of a region. -/
def State.warnStep (s : State) (r : Nat) : State :=
  let now := s.sys.therm.warn.getD r false
  let t := s.rgTemp r
  let set := if s.rd THM.MODE = 0 then decide (s.thr THM.WARN_THR ≤ t)
    else decide (10 * (s.rd THM.RATE_THR : Int) ≤ s.rgRate r ∧ s.thr THM.RATE_FLOOR ≤ t)
  let clr := if s.rd THM.MODE = 0 then decide (t ≤ s.thr THM.WARN_THR - s.hyst)
    else decide (s.rgRate r < 10 * (s.rd THM.RATE_THR : Int) - 50)
  let put := fun (s : State) (b : Bool) => s.modTherm fun h => { h with warn := modNth false h.warn r fun _ => b }
  if set ∧ !now then
    (((put s true).inc THM.WARN_CNT).logEv { level := 2, die1 := decide (r ≥ 2), inst := r, code := 0x4201 }).irq 3
  else if clr ∧ now ∧ !set then put s false
  else s

/-- The target level of a region. -/
def State.throttleTarget (s : State) (r : Nat) : Nat :=
  let l := s.rd (THM.RG_LEVEL r)
  let t := s.rgTemp r
  let thr := s.thr THM.THROT_THR
  let base := if thr + 4 * (l : Int) ≤ t then l + 1
    else if l > 0 ∧ t ≤ thr + 4 * ((l : Int) - 1) - s.hyst then l - 1
    else l
  let rate := s.rgRate r - 10 * (s.rd THM.RATE_THR : Int)
  let rt := if s.rd THM.MODE = 1 ∧ s.thr THM.RATE_FLOOR ≤ t ∧ 0 ≤ rate then
      (rate / max 1 (10 * (s.rd THM.RATE_STEP : Int))).toNat + 1
    else 0
  if s.working (dieSensors (r / 2)) = [] then s.rd THM.THROT_MAX else min (max base rt) (s.rd THM.THROT_MAX)

/-- The step a sample asks for, from boundary D + 1 on (R370); a shutdown keeps the level (R379). -/
def State.askStep (s : State) (r : Nat) : State :=
  let tgt := s.throttleTarget r
  let due := s.later (r / 2) 2
  let ask := if s.sys.thermShut ∨ tgt = s.rd (THM.RG_LEVEL r) then none
    else some (tgt, ((s.sys.therm.step.getD r none).map (·.2)).getD due)
  s.modTherm fun h => { h with step := modNth none h.step r fun _ => ask }

/-- FLAGS and STATE of thermal management (Table 13-6). -/
def State.thermFlags (s : State) : State :=
  let any := (List.range 4).any fun r => decide (s.rd (THM.RG_LEVEL r) ≠ 0)
  let warn := s.sys.therm.warn.any id
  let s := ((s.wrBit THM.FLAGS 0 warn).wrBit THM.FLAGS 1 any).wrBit THM.FLAGS 2 s.sys.thermShut
  let s := (s.wrBit THM.FLAGS 3 (decide (s.rd THM.SENSOR_FAIL ≠ 0))).wrBit THM.FLAGS 4 (decide (s.rd THM.MODE = 1))
  s.wr THM.STATE (if s.sys.thermShut then 3 else if any then 2 else if warn then 1 else 0)

/-- The sampling period of a die (R367, R371). -/
def State.period (s : State) (d : Nat) : Nat :=
  let near : Int := 4 * (s.rd THM.NEAR : Int)
  let thrs := if s.rd THM.MODE = 0 then [THM.WARN_THR, THM.THROT_THR, THM.SHUT_THR] else [THM.THROT_THR, THM.SHUT_THR]
  let close := (s.working (dieSensors d)).any fun k =>
    thrs.any fun a => decide (s.thr a - near ≤ s.sensor k ∧ s.sensor k < s.thr a)
  let rs := [2 * d, 2 * d + 1]
  if close || rs.any (fun r => decide (s.rd (THM.RG_LEVEL r) ≠ 0) ||
      decide (s.rd THM.MODE = 1 ∧ s.thr THM.RATE_FLOOR - near ≤ s.rgTemp r)) then 1 else 0

/-! ### Shutdown (R374, R375) -/

/-- Is an address HTX.SQUELCH of a lane? -/
def isHtxSquelch (a : Nat) : Bool := decide (blkOf a = 0x21 ∧ offOf a = 0x0012)

/-- A die without a working sensor, the other cause of FAULT_N bit 0. -/
def State.blindDie (s : State) : Bool := decide (s.working (dieSensors 0) = [] ∨ s.working (dieSensors 1) = [])

/-- Step 1 of a thermal shutdown. -/
def State.thermShutdown (s : State) (k : Nat) : State :=
  let s := s.modSys fun y => { y with thermShut := true, therm := { y.therm with
    lanesDown := true, step := List.replicate 4 none } }
  let s := (s.dropLive fun a => isLtxSquelch a || isHtxSquelch a).biasHolds (2 ^ 24 - 1)
  let s := (List.range 8).foldl State.txSquelch s
  let s := (List.range 16).foldl (fun s h => (s.wr (HTX.SQUELCH h) 1).htxFlags h) s
  ((s.faultOn 0).inc THM.SHUT_CNT).logEv
    { level := 4, fault := true, inst := k, code := 0x4203, detail := k * 65536 + enc 16 (s.sensor k) }

/-- Shutdown begins at a reading at or above SHUT_THR and ends when every working sensor is low enough. -/
def State.shutStep (s : State) (d : Nat) : State :=
  let all := s.working (dieSensors 0 ++ dieSensors 1)
  if s.sys.thermShut then
    if all ≠ [] ∧ all.all fun k => decide (s.sensor k ≤ s.thr THM.SHUT_THR - s.hyst) then
      let s := s.modSys fun y => { y with thermShut := false }
      (if s.blindDie then s else s.faultOff 0).logEv { level := 4, irq := true, code := 0x4204 }
    else s
  else match (s.working (dieSensors d)).find? fun k => decide (s.thr THM.SHUT_THR ≤ s.sensor k) with
    | some k => s.thermShutdown k
    | none => s

/-- SHUTDOWN_LANES_DOWN (R374). -/
def execShutdownLanesDown (s : State) : Result := finish s <|
  if !s.sys.therm.lanesDown then .next s
  else
    let s := s.modTherm fun h => { h with lanesDown := false }
    let s := (List.range 8).foldl (fun s n => if s.lineUp n then s.lineGoDown n else s) s
    .next ((List.range 16).foldl (fun s k => if s.hostUp k then s.hostGoDown k else s) s)

/-! ### Throttle steps (R369, R370, R372, R373) -/

/-- Set the running class ceiling of a lane (R369). -/
def State.useCeil (s : State) (n : Nat) : State :=
  s.wr (LRX.CTX_CLASS_CEIL n) (min (ceilLimit (s.rd (THM.RG_LEVEL (regionOfLine n)))) (s.rxL n).comCeil)

/-- The level of a region becomes `l`. -/
def State.setLevel (s : State) (r l : Nat) : State :=
  let old := s.rd (THM.RG_LEVEL r)
  let lanes := [2 * r, 2 * r + 1]
  let before := lanes.map s.laneTapLimit
  let s := (s.wr (THM.RG_LEVEL r) l).inc THM.STEP_CNT
  let s := if old = 0 then s.inc THM.THROT_CNT else s
  let s := (s.logEv { level := 2, die1 := decide (r ≥ 2), inst := r, code := 0x4202, detail := old * 256 + l }).irq 3
  let s := lanes.foldl State.useCeil s
  let s := (s.wr (JNR.RG_DUTY 0 r) (dutyOf l)).wr (JNR.RG_DUTY 1 r) (dutyOf l)
  let st := s.rd (JNR.STATE (s.servJ (r / 2)))
  if lanes.map s.laneTapLimit ≠ before ∧ st ≠ 2 then (s.inc THM.STEP_SKIP).wrBit THM.FLAGS 5 true else s

/-- THROTTLE_STEP (R370): one level towards the target, steps at least 4 ticks apart. -/
def execThrottleStep (r : Region) (s : State) : Result := finish s <|
  let n := r.val
  match s.sys.therm.step.getD n none with
  | none => .next s
  | some (tgt, due) =>
    let free := match s.sys.therm.lastStep.getD n none with
      | some t => decide (4 ≤ s.since (n / 2) t)
      | none => true
    if s.sys.thermShut ∨ !s.dueAt (n / 2) due ∨ !free ∨ s.dueBefore .throttle then .next s
    else
      let l := s.rd (THM.RG_LEVEL n)
      let l' := if l < tgt then l + 1 else l - 1
      let s := s.modTherm fun h => { h with
        lastStep := modNth none h.lastStep n fun _ => some (s.now (n / 2))
        step := modNth none h.step n fun x => if l' = tgt then none else x }
      .next (s.setLevel n l').thermFlags

/-! ### Asleep (R376) -/

/-- AON_THERMAL_SAMPLE: the island samples S7 in CHRYSALIS and DIAPAUSE. -/
def execAonThermalSample (t : BitVec 16) (s : State) : Result := finish s <|
  if s.rd PWR.STATE < 2 ∨ s.thermOn then .next s
  else
    let x := t.toInt
    let s := s.modTherm fun h => { h with s7 := x }
    .next (if s.thr THM.SHUT_THR ≤ x ∧ !s.sys.therm.aonShut then
        ((s.modTherm fun h => { h with aonShut := true }).faultOn 0).logEv
          { level := 4, fault := true, inst := 7, code := 0x4203, detail := 7 * 65536 + enc 16 x }
      else if s.sys.therm.aonShut ∧ x ≤ s.thr THM.SHUT_THR - s.hyst then
        ((s.modTherm fun h => { h with aonShut := false }).faultOff 0).logEv { level := 4, irq := true, code := 0x4204 }
      else s)

end Sys2Proof.Machine
end

