-- ==== Sys2Proof/Machine/TenLink.lean ====
section
/-!
DEFINITION. Ports of the Tenon link, what they send, and the TICK and TIME blocks of a boundary (R441, R442, R447, R451).
-/

namespace Sys2Proof.Machine

def State.ten (s : State) : Ten := s.sys.ten
def State.modTen (s : State) (f : Ten → Ten) : State := s.modSys fun y => { y with ten := f y.ten }
def State.port (s : State) (p : Nat) : TenPort := s.sys.ten.ports.getD p .reset
def State.modPort (s : State) (p : Nat) (f : TenPort → TenPort) : State := s.modTen fun t => { t with ports := modNth .reset t.ports p f }
/-- Is a port UP? -/
def State.portUp (s : State) (p : Nat) : Bool := decide (s.rd (TEN.STATE p) = 2)

/-! ### Blocks and messages -/

/-- The payload of a control block: type, bytes, zeros up to eight (R441). -/
def block (ty : Nat) (bytes : List Nat) : List Byte := ((ty :: bytes ++ List.replicate 7 0).take 8).map byteOf
/-- Send a control block on a port that is UP. -/
def State.sendBlock (s : State) (p : Nat) (b : List Byte) : State :=
  if s.portUp p then s.modPort p fun t => { t with blocks := t.blocks ++ [b] } else s
/-- Send a message on a port that is UP (R442). -/
def State.sendMsg (s : State) (p : Nat) (m : TenMsg) : State :=
  if s.portUp p then s.modPort p fun t => { t with msgs := t.msgs ++ [m] } else s
/-- The address of this device: 0 for a ridge (Table 16-3). -/
def State.tenAddr (s : State) : Nat := if s.rd DEV.ROLE = 2 then s.rd (TEN.ADDR 0) else 0

/-! ### Chain state and time (R447, R451) -/

/-- Is this rafter joined? -/
def State.joined (s : State) : Bool := decide (s.rd (TEN.CHAIN_STATE 0) = 3 ∨ s.rd (TEN.CHAIN_STATE 0) = 4)
/-- Three bytes of a value, little-endian. -/
def le3 (v : Nat) : List Nat := [v % 256, v / 256 % 256, v / 65536 % 256]
/-- The payload of a TICK (Table 16-3). -/
def tickBlock (offset : Nat) (ridge : Bool) (hops no : Nat) : List Byte :=
  block 0x33 (le3 offset ++ [128 * ridge.toNat + hops % 32] ++ le3 no)
/-- The payload of a TIME. -/
def timeBlock (no mode : Nat) : List Byte := block 0x3C ((le 6 no).map BitVec.toNat ++ [mode % 4])
/-- At a boundary a ridge, and a rafter that runs on its own ticks, sends TICK downstream, before it TIME where TICKNO mod
1,024 is 0. OFFSET, the time to the slot, is a measurement: a free value (log 2). -/
def State.sendTicks (s : State) : State :=
  let own := decide (s.rd DEV.ROLE = 1) || (decide (s.rd DEV.ROLE = 2 ∧ s.rd (TEN.CHAIN_STATE 0) ≠ 0) && !s.joined)
  if !own || !s.portUp 1 then s
  else
    let s := if s.tickno % 1024 = 0 then s.sendBlock 1 (timeBlock s.tickno (s.rate 0)) else s
    s.draw.2.sendBlock 1 (tickBlock s.draw.1.toNat (decide (s.rd DEV.ROLE = 1)) 0 s.tickno)

end Sys2Proof.Machine
end

