-- ==== Sys2Proof/Machine/TickBoundary.lean ====
section
/-!
DEFINITION. The tick boundary: per-tick fields of the tick that ends, the snapshot image, TICKNO, and the judgements of
the boundary (R9, R10, R12, R28, R29, R57, R67 to R69, R74, R80, R100 to R102, R133, R151, R152, R156, R157, R162, R167,
R189 to R194, R212, R216, R227, R288, R447, R466).
-/

namespace Sys2Proof.Machine

/-! ### Fields of the tick that ends -/

/-- TR_FREQ of a frequency accumulator: F in units of 0.01 ppm, 549,756 being 1 ppm (R67). DESIGN CHOICE: rounded down
(log 164). -/
def trFreq (f : BitVec 32) : Int := sat 16 (f.toInt * 100 / 549756)

/-- Per-tick fields and totals of a line lane (R57, R69, R167), and the sums of the next tick. -/
def State.tickLine (s : State) (n : Nat) : State :=
  let r := s.rxL n
  let t := s.txL n
  let s := (s.wr (LRX.CLIP_CNT n) r.clips).wrBit (LRX.FLAGS n) 4 (decide (r.clips > s.rd (LRX.CLIP_THR n)))
  let s := (s.wr (LRX.WORDS n) r.words).wr (LRX.TR_FREQ n) (enc 16 (trFreq r.f))
  let s := s.wr (LRX.TR_LOCK_METRIC n) (min 0xFFFF (r.absE / max 1 r.words / 256))
  let s := (s.wr (FEC.CW n) r.cw).wr (FEC.CW_CORR n) r.cwCorr
  let s := (s.wr (FEC.BITS_CORR n) r.bitsCorr).wr (FEC.CW_UNCORR n) r.cwUncorr
  let s := (s.add (FEC.CW_TOT n) r.cw).add (FEC.BITS_CORR_TOT n) r.bitsCorr
  let s := s.add (FEC.CW_UNCORR_TOT n) r.cwUncorr
  let s := if s.bit (FEC.FLAGS n) 5 then s.inc (FEC.SEG_BYPASS_TICKS n) else s
  let s := (s.wr (LTX.SAT_CNT n) t.sat).wrBit (LTX.FLAGS n) 4 (decide (t.sat ≠ 0))
  let track := decide (s.rd (LRX.STATE n) = 3)
  let cons := s.bit (LRX.FLAGS n) 6
  let s := s.modRx n fun r => { r with
    qTicks := r.qTicks + 1, qTrack := r.qTrack + track.toNat, qCons := r.qCons + cons.toNat
    qBits := if track then r.qBits + r.bitsCorr else r.qBits
    qGood := if track then r.qGood + (r.cw - r.cwUncorr) else r.qGood, qFirst := r.qFirst || !track
    recipe := { r.recipe with clipped := r.recipe.clipped || decide (r.clips > s.rd (LRX.CLIP_THR n)) } }
  let run := decide (s.rd (LTX.STATE n) = 2 ∨ s.rd (LTX.STATE n) = 3)
  let s := if run ∧ t.fill then s.inc (LTX.FILL_CNT n) else s
  (s.wrBit (LTX.FLAGS n) 1 (run && t.fill)).txFlags n

/-- Host-code counts of a line lane's region at both taps in the ended tick (R162, R163); a lane that receives fill counts
nothing at OUT (R160). -/
def State.tickHm (s : State) (n : Nat) : State :=
  let i := (s.tap (tapIx (regionOfLine n) false)).count
  let o := (s.tap (tapIx (regionOfLine n) true)).count
  let sym := fun (h : HmCount) => if n % 2 = 0 then h.symA else h.symB
  let s := (s.wr (FEC.HM_SYM_IN n) (sym i)).wr (FEC.HM_SYM_OUT n) (if s.bit (FEC.FLAGS n) 1 then 0 else sym o)
  let s := (s.wr (FEC.HM_CW_IN n) i.cw).wr (FEC.HM_UNCORR_IN n) i.uncorr
  let s := (s.wr (FEC.HM_CW_OUT n) o.cw).wr (FEC.HM_UNCORR_OUT n) o.uncorr
  let s := s.wrList (FEC.HM_HIST_OUT n 0) (((List.range 16).map fun k => o.hist.getD k 0) ++ [o.uncorr])
  (s.add (FEC.HM_UNCORR_IN_TOT n) i.uncorr).add (FEC.HM_UNCORR_OUT_TOT n) o.uncorr

/-- Per-tick fields of a host lane (R189, R190, R194); in HOLD the recovered frequency is frozen (Table 6-3) while the lane
still measures the received one (log 30). -/
def State.tickHost (s : State) (k : Nat) (cdr ebuf : Int) : State :=
  let st := s.rd (HRX.STATE k)
  let s := if 2 ≤ st ∧ st ≤ 5 then s.modHost k fun h => { h with cdr := cdr } else s
  let s := if 2 ≤ st ∧ st ≤ 4 then
      (s.wr (HRX.CDR_FREQ k) (enc 16 (sat 16 cdr))).wrBit (HRX.FLAGS k) 2 (decide (cdr.natAbs > 10000))
    else s
  let s := if st = 3 ∨ st = 4 then s.wr (HRX.EBUF_FILL k) (enc (fieldWidth (HRX.EBUF_FILL k)) ebuf) else s
  let s := if s.hostUp k ∧ s.bit (HTX.FLAGS k) 0 then s.inc (HTX.LINE_LOSS_TICKS k) else s
  let s := s.modHost k fun h => { h with qTicks := h.qTicks + 1, qData := h.qData + (decide (st = 4)).toNat, words := 0 }
  s.htxFlags k

/-- The LATE field, overrun counts and late marks of a Joiner (R212), its cycle counter (R227) and capture stalls
(R216). -/
def State.tickJoiner (s : State) (d : Nat) : State :=
  let lateBit := fun (w : Nat) =>
    let t := slotTarget w
    match slotKind w with
    | 1 => 14
    | 2 => t % 8
    | 3 => 8 + t % 4
    | 4 => 12
    | 5 => 13
    | _ => 15
  let late := (List.range 32).filter fun k => ((s.jn d).slots.getD k .reset).lateNow
  let word := late.foldl (fun v k => setBit v (lateBit (s.rd (JNR.SCHED d k))) true) 0
  let s := late.foldl (fun s k => s.inc (JNR.OVR_CNT d k)) s
  let s := (s.wr (JNR.LATE d) word).wrBit (JNR.FLAGS d) 6 (decide (word ≠ 0))
  let user := (List.range 32).any fun k =>
    decide (slotKind (s.rd (JNR.SCHED d k)) = 6) && !((s.jn d).slots.getD k .reset).reverted
  let s := s.wrBit (JNR.FLAGS d) 5 user
  let s := s.modJn d fun j => { j with slots := j.slots.map fun b =>
    if b.lateNow then { b with lateNow := false, latePrev := true } else b }
  let s := if s.rd (JNR.STATE d) = 0 then s else s.add (JNR.PC_CYCLE d) ((2048 : Int) + s.tickAdj).toNat
  (List.range 24).foldl (fun s c =>
    if (if c < 8 then dieOfLine c else dieOfHost (c - 8)) = d ∧ (s.fifo c).waited then
      (s.inc (JNR.CAP_STALL d)).modFifo c fun f => { f with waited := false } else s) s

/-! ### The snapshot image (R466) -/

/-- Is a field part of the image of die `d`? -/
def imaged (d a : Nat) : Bool :=
  decide (blkOf a ∈ [0x10, 0x11, 0x12, 0x13, 0x20, 0x21] ∧ fieldCls a = some .ro ∧ dieOfAddr a = d)

/-- The image of a die, listing the fields that differ from their reset values. -/
def State.imageOf (s : State) (d : Nat) : Regs := s.regs.filter fun x => imaged d x.1

/-- TICKNO of the tick that ends at a boundary numbered `t` of die `d` (R12). -/
def State.endedTick (s : State) (d t : Nat) : Nat :=
  let back := if s.split ∧ s.rate d = 1 ∧ s.rate (1 - d) = 0 then 2 else 1
  (t + 2 ^ 48 - back) % 2 ^ 48

/-- Latch the image of die `d` at the boundary numbered `t`. -/
def State.latch (s : State) (d t : Nat) : State :=
  let seq := ((if d = 0 then s.seq0 else s.seq1) + 1) % 2 ^ 32
  let tk := s.endedTick d t
  let s := ([0, 1, 2, 3].map (4 * d + ·)).foldl (fun s n => (s.wr (FEC.SNAP_SEQ n) seq).wr (FEC.SNAP_TICKNO n) tk) s
  if d = 0 then
    { ((s.wr OBS.SNAP_SEQ seq).wr OBS.SNAP_TICKNO tk) with image0 := s.imageOf 0, seq0 := seq }
  else { s with image1 := s.imageOf 1, seq1 := seq }

/-- Is a field a per-tick one, or the TICKNO of a snapshot (Tables 2-14, 3-11, 5-7, 7-17 and 17-6)? -/
def perTick (a : Nat) : Bool :=
  let o := offOf a
  match blkOf a with
  | 0x10 => decide (o = 0x0083 ∨ o = 0x00E0 ∨ o = 0x00E2)
  | 0x11 => decide (o = 0x0060)
  | 0x13 => decide (0x0061 ≤ o ∧ o ≤ 0x0065) || decide (0x0070 ≤ o ∧ o ≤ 0x0090)
  | 0x30 => decide (o = 0x0051)
  | 0x70 => decide (o = 0x0003)
  | _ => false
/-- After a warm reset and in CHRYSALIS the per-tick fields read zero until the next boundary of their block (Table 11-5). -/
def State.clearTick (s : State) : State :=
  let cut := fun (r : Regs) => r.filter fun x => !perTick x.1
  { s with regs := cut s.regs, image0 := cut s.image0, image1 := cut s.image1 }

/-! ### Clocks and payload at a boundary (R100 to R102, R194) -/

/-- Move a frequency towards another by at most 0.5 ppm. -/
def slew (now want : Int) : Int := if want > now + 50 then now + 50 else if want < now - 50 then now - 50 else want

/-- The line transmit clock slews towards H(2n) while its source is HOST. -/
def State.slewLine (s : State) (n : Nat) : State :=
  if s.rd (LTX.CLK_SRC n) = 1 then
    s.wr (LTX.CLK_FREQ n) (enc 16 (slew (s.rdS (LTX.CLK_FREQ n)) (s.rdS (HRX.CDR_FREQ (2 * n)))))
  else s
/-- A host transmit clock slews towards the line lane while its source is LINE. -/
def State.slewHost (s : State) (k : Nat) : State :=
  if s.rd (HTX.CLK_SRC k) = 1 then
    s.wr (HTX.CLK_FREQ k) (enc 16 (slew (s.rdS (HTX.CLK_FREQ k)) (s.rdS (LRX.TR_FREQ (lineOfHost k)))))
  else s

/-! ### Judgements of a line lane -/

/-- Counts of dark, lit, unlocked, frameless, clean and good ticks (R69, R74, R80, R152, Table 2-10), with the dwell in
the gain-table row (R68). In INSTAR the state of a lane is no LOS (R385). -/
def State.judgeLine (s : State) (n low : Nat) : State :=
  let st := s.rd (LRX.STATE n)
  let metric := s.rd (LRX.TR_LOCK_METRIC n)
  let thr := s.rd (LRX.TR_LOCK_THR n)
  let terminal := decide (s.dwellNow n = 0)
  let frame := s.rd (FEC.FRAME_STATE n)
  let los := s.bit (LRX.FLAGS n) 0
  let up := decide (st ≠ 0)
  let asleep := s.sys.lanesIdle
  let unc := s.rd (FEC.CW_UNCORR n)
  let max_ := s.sys.bundle.uncorrMax n
  s.modRx n fun r => { r with
    dark := if up && decide (low ≥ 32) && !asleep then r.dark + 1 else 0
    lit := if up && decide (low < 32) && !asleep then r.lit + 1 else 0
    black := if up && decide (low = 64) && !asleep then r.black + 1 else 0
    overFreq := up && (r.overNow || freqOver r.f)
    overNow := false
    lolTicks := if st = 3 ∧ metric > thr then r.lolTicks + 1 else 0
    lofTicks := if frame = 2 ∧ !los ∧ 16 * r.zeroSyn < r.cw then r.lofTicks + 1 else 0
    cleanTicks := if st = 2 ∧ r.step = 4 ∧ r.clips ≤ s.rd (LRX.CLIP_THR n) then r.cleanTicks + 1 else 0
    goodTicks := if st = 2 ∧ r.step ≠ 3 ∧ r.step ≠ 13 ∧ terminal ∧ metric ≤ thr ∧ frame = 2 ∧ unc ≤ max_ then
      r.goodTicks + 1 else 0
    dwell := if s.rowRuns n then r.dwell + 1 else r.dwell
    words := 0, clips := 0, absE := 0, cw := 0, cwCorr := 0, bitsCorr := 0, cwUncorr := 0, zeroSyn := 0 }

/-- The hunt of one tick (R151): offsets with at least 25 % clean codewords pass; one that has passed twice locks. -/
def RxLane.judgeHunt (r : RxLane) : RxLane :=
  let l := r.huntList
  let ok := (List.range l.length).filterMap fun i =>
    let c := r.cands.getD i (0, 0)
    if c.1 ≠ 0 ∧ c.1 ≤ 4 * c.2 then some (l.getD i 0) else none
  { r with passedTwice := ok.filter fun o => r.passed.contains o, passed := ok, cands := [],
           candBase := (r.candBase + 16) % 256 }

/-- The steps of bring-up, relink and calibration that a boundary ends (Tables 2-10 and 2-11, R273). DESIGN CHOICE: step 4
also needs a lit tick (log 165). -/
def State.stepLine (s : State) (n : Nat) : State :=
  let r := s.rxL n
  let los := s.bit (LRX.FLAGS n) 0
  let lit := decide (r.lit ≥ 1)
  let s := if s.rd (FEC.FRAME_STATE n) = 1 then s.modRx n RxLane.judgeHunt else s
  match s.rd (LRX.STATE n) with
  | 1 =>
    if (r.calMeth = 1 ∨ r.calMeth = 3) ∧ lit then
      (s.modRx n fun r => { r with calMeth := 2 }).inc DEV.CAL_BG_CNT
    else s
  | 2 =>
    if r.step = 3 ∧ lit ∧ !los then s.modRx n fun r => { r with step := 4, lightT := s.nowL n, cleanTicks := 0 }
    else if r.step = 13 ∧ r.relinkT.all fun t => s.passed (dieOfLine n) t 65 then
      s.modRx n fun r => { r with step := if s.dwellNow n = 0 then 15 else 14, dwell := 0 }
    else s
  | 4 =>
    let s := if r.holdLol ∧ !los ∧ r.lolAt ≠ s.nowL n ∧ (s.pll (2 * regionOfLine n)).locked then
        s.modRx n fun r => { r with holdLol := false }
      else s
    s.tryRelink n (if r.holdLol then 1 else 0)
  | _ => s

/-- A DACTRIM opportunity (R278, R288): once per 4,096 ticks of a lane that is ACTIVE or SQUELCHED, what the transmit sense
shows is compared with Table 9-4. -/
def State.dacEval (s : State) (n : Nat) (m : List TrimMeas) : State :=
  let on := decide (s.rd (LTX.STATE n) = 2 ∨ s.rd (LTX.STATE n) = 3)
  let due := (s.txL n).evalAt.all fun t => s.passed (dieOfLine n) t 4096
  if m ≠ [] ∧ on ∧ due then
    let ok := trimsNear m (s.rdList (LTX.SUBDAC_TRIM n 0) 4)
    s.modTx n fun t => { t with evalAt := some (s.nowL n), meas := m, okEvals := if ok then t.okEvals + 1 else 0 }
  else s
/-- Degraded flags that clear on good ticks and on good evaluations (R288). -/
def State.clearDegraded (s : State) (n : Nat) (m : List TrimMeas) : State :=
  let s := s.modRx n fun r => { r with okTicks := if s.rd (LRX.STATE n) = 3 ∧ s.slicesNear n then r.okTicks + 1 else 0 }
  let s := if s.bit (LRX.FLAGS n) 2 ∧ (s.rxL n).okTicks ≥ 1024 then s.wrBit (LRX.FLAGS n) 2 false else s
  let s := (s.modTx n fun t => { t with sat := 0 }).dacEval n m
  if s.bit (LTX.FLAGS n) 2 ∧ (s.txL n).okEvals ≥ 4 then s.wrBit (LTX.FLAGS n) 2 false else s

/-- A bad master copy disables the correction it feeds (R133). -/
def State.masterOff (s : State) (n : Nat) (t : Tbl) : State :=
  if (s.tbl n t).masterBad = [] ∨ s.bit (CTX.FLAGS n) t.ix then s
  else
    let s := s.wrBit (CTX.FLAGS n) t.ix true
    let s := match t with
      | .ctx => (s.modRx n fun r => { r with degMaster := true }).rxDegraded n
      | .shp => (s.modTx n fun r => { r with degMaster := true }).txDegraded n
    s.lineLog n 0x1204 t.ix true

/-! ### Pattern evaluators (R156, R157) -/

/-- A spare's comparison with the in-service evaluator it shadows differs: logged, and a pair that has mismatched once too
often is retired by the firmware. DESIGN CHOICE: the spare's cycle starts again (log 170). -/
def State.evalMismatch (s : State) (n sp ev : Nat) : State :=
  let s := s.logEv { level := 0, die1 := decide (n ≥ 4), inst := n, code := 0x1302, detail := sp * 256 + ev }
  let s := (s.wrBit (FEC.EVAL_READY n) sp false).modRx n fun r => { r with
    mismatches := if r.mismatches.contains (sp, ev) then r.mismatches else r.mismatches ++ [(sp, ev)]
    evalCycle := (sp, s.nowL n) :: r.evalCycle.filter fun x => decide (x.1 ≠ sp) }
  let m := (s.rxL n).mismatches
  let s := if 2 ≤ (m.filter fun x => decide (x.2 = ev)).length then
      s.unitJoin ⟨.evaluator, n, ev, none, none, none⟩ else s
  if 3 ≤ (m.filter fun x => decide (x.1 = sp)).length then s.unitJoin ⟨.evaluator, n, sp, none, none, none⟩ else s

/-- The comparisons of the ended tick (R156): `sps` are the spares that differed; the tick counts once. -/
def State.evalTick (s : State) (n : Nat) (sps : List Nat) : State :=
  let pairs := (s.idleEvals n).filterMap fun sp => if sps.contains sp then (s.shadowed n sp).map fun ev => (sp, ev) else none
  let s := if pairs = [] then s else s.inc (FEC.EVAL_MISMATCH n)
  pairs.foldl (fun s x => s.evalMismatch n x.1 x.2) s

/-- Spares whose shadow cycle of 16 ticks has ended clean are ready. -/
def State.evalReady (s : State) (n : Nat) : State :=
  let due := (s.rxL n).evalCycle.filter fun x => decide (16 ≤ s.sinceL n x.2)
  let s := due.foldl (fun s x => s.wrBit (FEC.EVAL_READY n) x.1 true) s
  s.modRx n fun r => { r with evalCycle := r.evalCycle.filter fun x => !due.contains x }

/-! ### Judgements of a host lane -/

/-- Dark and lit ticks, slips, good ticks (R185, R188, R189, R191), clean ticks of the line lane (R194), the causes
LOL and EBUF of HOLD (R189, R190, R192; log 30), and the leaving of WAIT and HOLD. -/
def State.judgeHost (s : State) (k low : Nat) (slips : Bool) : State :=
  let st := s.rd (HRX.STATE k)
  let up := s.hostUp k
  let asleep := s.sys.lanesIdle
  let s := s.modHost k fun h => { h with
    dark := if up && decide (low ≥ 32) && !asleep then h.dark + 1 else 0
    lit := if up && decide (low < 32) && !asleep then h.lit + 1 else 0
    slips := slips && decide (st = 2 ∨ st = 3 ∨ st = 4) }
  let ok := !s.bit (HRX.FLAGS k) 0 && !slips && decide ((s.hostL k).cdr.natAbs ≤ 10000)
  let s := if ok then s.wrBit (HRX.FLAGS k) 1 false else s
  let loss := s.lossHolds (lineOfHost k)
  let s := s.modHost k fun h => { h with
    good := if ((st = 2 ∧ 4 ≤ h.quiet) ∨ st = 3) ∧ ok then h.good + 1 else 0
    clean := if loss then 0 else h.clean + 1
    holdLol := h.holdLol && !ok
    holdEbuf := h.holdEbuf && decide (st ≠ 5) }
  match st with
  | 1 => if !s.bit (HRX.FLAGS k) 0 ∧ 1 ≤ (s.hostL k).lit then s.hostLit k else s
  | 5 => s.tryHost k
  | _ => s

end Sys2Proof.Machine
end

