-- ==== Sys2Proof/Machine/Staging.lean ====
section
/-!
DEFINITION. Reading and staging of parameter fields: STAGE_WRITE, STAGE_READ, READ, SNAPSHOT, LIVE_WRITE and the effect
of live writes (R16 to R19, R228, R305, R306, R345, R467, R482, R483).
-/

namespace Sys2Proof.Machine

/-! ### What a field reads as -/

/-- The running value of a field, with the fields the model computes. -/
def State.live0 (s : State) (a : Nat) : Nat :=
  if a = DEV.TICKNO then s.tickno
  else if a = DEV.CFG_GEN1 then (if s.split then s.rd DEV.CFG_GEN1 else s.rd DEV.CFG_GEN0)
  else if a = DEV.STAGED0 then (s.dom 0).staged.length
  else if a = DEV.STAGED1 then (if s.split then (s.dom 1).staged.length else 0)
  else if a = DEV.BUNDLE_STAGED then
    (match (s.dom 0).bundle, (s.dom 1).bundle with
    | some b, _ => b.seq
    | none, some b => b.seq
    | none, none => 0)
  else if a = HK.FLAGS then s.hkFlags
  else if a = BDAC.FLAGS then s.bdacFlags
  else if blkOf a = 0x40 ∧ 0x800 ≤ offOf a then (s.ringField (offOf a)).getD 0
  else if blkOf a = 0x30 ∧ 0x00D0 ≤ offOf a ∧ offOf a ≤ 0x00D3 then s.pcPair (instOf a) (offOf a - 0x00D0)
  else s.rd a

/-- The value a READ gives: a field of the snapshot image comes from the image, once there is one (R466). -/
def State.readVal (s : State) (a : Nat) : Nat :=
  if imaged 0 a ∧ s.seq0 ≠ 0 then s.image0.get a
  else if imaged 1 a ∧ s.seq1 ≠ 0 then s.image1.get a
  else s.live0 a

/-- The index of the first entry that meets a predicate. -/
def firstIdx {α : Type} (l : List α) (p : α → Bool) : Option Nat := l.findIdx? p

/-- `n` addresses of 4 bytes. -/
def addrs (ps : List Byte) (n : Nat) : List Nat := (List.range n).map fun i => getLe ps (4 + 4 * i) 4

/-- The common checks of the requests that name fields: count, length, reserved bytes, addresses. -/
def State.addrReq (s : State) (r : ReqRef) (ps : List Byte) (most : Nat) (go : List Nat → State) : State :=
  let n := getLe ps 0 2
  if n = 0 ∨ most < n ∨ ps.length ≠ 4 + 4 * n then s.bad r .badLength
  else if getLe ps 2 2 ≠ 0 then s.bad r .badAddress
  else match firstIdx (addrs ps n) (fun a => (fieldRow a).isNone) with
    | some i => s.bad r .badAddress i
    | none => go (addrs ps n)

/-- Is an address a RING_DATA field? -/
def isRing (a : Nat) : Bool := decide (blkOf a = 0x40 ∧ 0x800 ≤ offOf a)

/-- The refusals of a read of ring entries (R345): the oldest surviving position and the failing index, or no mark. -/
def State.ringRefuse (s : State) (r : ReqRef) (as : List Nat) : Option State :=
  let k := fun (a : Nat) => (offOf a - 0x800) / 256
  match firstIdx as fun a => isRing a && (s.bit (HK.RING_FLAGS (k a)) 1 || (s.bit (HK.RING_FLAGS (k a)) 0 &&
      (s.ringField (offOf a)).isNone)) with
  | some i =>
    let q := k (as.getD i 0)
    some (s.refuse r .truncated "TRUNCATED" ((s.ring q).tot - s.rd (HK.RING_LEN q)) i)
  | none =>
    if as.any fun a => isRing a && !s.bit (HK.RING_FLAGS (k a)) 0 then some (s.refuse r .precondition "NO_MARK") else none

/-- READ (R306). Reading THM.FLAGS ends "a step skipped since read" (Table 13-6). -/
def svcRead : Service := fun r ps s =>
  s.addrReq r ps 340 fun as =>
    match s.ringRefuse r as with
    | some s => s
    | none =>
      let s' := s.ok r (le 8 s.tickno ++ as.flatMap fun a => le 8 (s.readVal a))
      if as.contains THM.FLAGS then s'.wrBit THM.FLAGS 5 false else s'

/-- SNAPSHOT (R467). -/
def svcSnapshot : Service := fun r ps s =>
  s.addrReq r ps 508 fun as =>
    match firstIdx as fun a => !(imaged 0 a || imaged 1 a) with
    | some i => s.refuse r .badAddress "NOT_SNAPPED" i
    | none =>
      let d := if as.all (imaged 1) then 1 else 0
      if s.split ∧ s.rate 0 ≠ s.rate 1 ∧ as.any (imaged 0) ∧ as.any (imaged 1) then s.refuse r .badAddress "MIXED_RATE"
      else
        let seq := if d = 0 then s.seq0 else s.seq1
        let tk := s.rd (FEC.SNAP_TICKNO (4 * d))
        s.ok r (le 4 seq ++ le 6 tk ++ [0, 0] ++ as.flatMap fun a => le 8 (s.readVal a))

/-! ### Staging -/

/-- The staged value of a field. -/
def Domain.stagedVal (d : Domain) (a : Nat) : Option Nat := (d.staged.find? fun x => decide (x.1 = a)).map (·.2)

/-! ### Reserved values (R16) -/

/-- The reserved bits within a field's width (Table 7-14, chapter 12, Table 17-1). -/
def reservedBits (a : Nat) : Nat :=
  let o := offOf a
  match blkOf a with
  | 0x30 => if 0x00C0 ≤ o ∧ o ≤ 0x00C7 then 0x3F0000FF + 2 ^ 30 * (o % 2) else 0
  | 0x40 =>
    if 0x0020 ≤ o ∧ o ≤ 0x005F then 0xFFE00FE0
    else if 0x0108 ≤ o ∧ o ≤ 0x010F then 7
    else if 0x0180 ≤ o ∧ o ≤ 0x018F then 0x800F
    else 0
  | 0x41 => if 0x0200 ≤ o ∧ o ≤ 0x0217 then 0x7FFFF else 0
  | 0x70 => if 0x0060 ≤ o ∧ o ≤ 0x0067 then 0xFFF else 0
  | _ => 0
/-- A staged value as it reads: its reserved bits, and bits above the field's width, read as zero. -/
def readsAs (a v : Nat) : Nat := v % 2 ^ fieldWidth a - (v % 2 ^ fieldWidth a &&& reservedBits a)

/-- Is a counter control word reserved in part (Tables 7-14 and 7-15)? -/
def pcCtrlReserved (a v : Nat) : Bool :=
  decide (v &&& reservedBits a ≠ 0 ∨ bits v 23 16 > 0x0F ∨ (31 < bits v 15 8 ∧ bits v 15 8 ≠ 0xFF) ∨
    (bits v 31 31 = 1 ∧ bits v 23 16 = 0))

/-- A reserved bit or value within the field's width that no agreement rule covers. -/
def reservedIn (a v : Nat) : Bool :=
  match blkOf a with
  | 0x10 => (offOf a = 0x0014 && decide (v > 36)) || (offOf a = 0x0015 && decide (v = 0))
  | 0x20 => (offOf a = 0x0014 && decide (v > 30)) || (offOf a = 0x0015 && decide (v = 0)) ||
      (offOf a = 0x0018 && decide (v < 2))
  | 0x30 => decide (0x00C0 ≤ offOf a ∧ offOf a ≤ 0x00C7) && pcCtrlReserved a v
  | 0x40 => (offOf a = 0x0018 && decide (v > 23)) || decide (v &&& reservedBits a ≠ 0)
  | 0x41 => decide (v &&& reservedBits a ≠ 0)
  | _ => false

/-- STAGE_READ (R306); reserved bits read as zero (R16). -/
def svcStageRead : Service := fun r ps s =>
  s.addrReq r ps 340 fun as =>
    s.ok r (as.flatMap fun a =>
      let d := s.dom (s.domOfAddr a)
      let held := match d.commit with
        | some c => c.frozen.any fun x => decide (x.1 = a)
        | none => false
      match d.stagedVal a with
      | some v => le 8 (readsAs a v) ++ [byteOf (1 + 2 * held.toNat), 0, 0, 0]
      | none => le 8 (s.readVal a) ++ [byteOf (2 * held.toNat), 0, 0, 0])

/-- The concrete addresses of an entry: instance 0xFF names every instance of a lane-indexed block (R18). -/
def expand (a : Nat) : List Nat :=
  if instOf a = 0xFF ∧ laneIndexed (blkOf a) then
    (List.range (blockInstances (blkOf a))).map fun i => fld (blkOf a) i (offOf a)
  else [a]

/-- Is the block that owns a field up, for the class K (R30, R326)? A pending LANE_UP makes a die up (R307). -/
def State.ownerUp (s : State) (a : Nat) (before : Option Nat) : Bool :=
  let b := blkOf a
  let pend := fun (line host : Nat) => s.lanes.any fun q => q.up && decide (q.line &&& line ≠ 0 ∨ q.host &&& host ≠ 0) &&
    (match before with
    | some t => !reached q.target t
    | none => true)
  if b = 0x01 then
    let d := dieOfAddr a
    s.dieUp d || pend (0xF * 16 ^ d) (0xFF * 256 ^ d)
  else if b ≤ 0x13 then s.lineUp (instOf a) || (before.isSome && pend (2 ^ instOf a) 0)
  else s.hostUp (instOf a) || (before.isSome && pend 0 (2 ^ instOf a))

/-- The names of the K fields, for R293. -/
def kName (a : Nat) : String :=
  match blkOf a, offOf a with
  | 0x01, 0x0011 => "RATE_MODE0"
  | 0x01, 0x0012 => "RATE_MODE1"
  | 0x01, 0x0013 => "FEC_MODE0"
  | 0x01, 0x0014 => "FEC_MODE1"
  | 0x10, 0x0010 => "INPUT_CPL"
  | 0x10, _ => "INPUT_POL"
  | 0x11, _ => "OUT_POL"
  | 0x20, 0x0010 => "INPUT_POL"
  | 0x20, 0x0011 => "LT_EN"
  | 0x20, _ => "PRECODE_REQ"
  | 0x21, 0x0010 => "OUT_POL"
  | _, _ => "PRECODE"

/-- Entries of a STAGE_WRITE or LIVE_WRITE: (address, value). -/
def entries (ps : List Byte) (n : Nat) : List (Nat × Nat) :=
  (List.range n).map fun i => (getLe ps (4 + 12 * i) 4, getLe ps (8 + 12 * i) 8)

/-- Put a value into a staged image, in address order. -/
def Domain.put (d : Domain) (a v : Nat) : Domain := { d with staged := spPut d.staged a v }

/-- Die 1 cannot be reached for this field (R43). -/
def State.cutField (s : State) (a : Nat) : Bool := s.sys.bridgeLost && decide (dieOfAddr a = 1)

/-- Why a STAGE_WRITE of one field is refused (R305). -/
def State.stageBar (s : State) (a : Nat) : Option (Status × String) :=
  match fieldCls a with
  | none => some (.badAddress, "BAD_ADDRESS")
  | some .ro => some (.denied, "ACCESS")
  | some .k =>
    if s.cutField a then some (.hwFault, "HW_FAULT")
    else if s.ownerUp a none then some (.runLocked, kName a) else none
  | some _ => if s.cutField a then some (.hwFault, "HW_FAULT") else none

/-- Fields a staged image holds at most (R305). -/
def stageSize : Nat := 2048

/-- Stage entries in order from index `i`; none where the staged images take them all, else the failing index. -/
def State.stageAll (s : State) (doms : List Domain) (i : Nat) : List (Nat × Nat) →
    Except (Nat × Status × String) (List Domain)
  | [] => .ok doms
  | (a, v) :: rest =>
    match (expand a).findSome? s.stageBar with
    | some (st, nm) => .error (i, st, nm)
    | none =>
      let doms := (expand a).foldl (fun ds b => modNth .reset ds (s.domOfAddr b) fun d => d.put b v) doms
      if doms.any fun d => decide (stageSize < d.staged.length) then .error (i, .busy, "STAGE_FULL")
      else s.stageAll doms (i + 1) rest

/-- STAGE_WRITE (R305). -/
def svcStageWrite : Service := fun r ps s =>
  let n := getLe ps 0 2
  if n = 0 ∨ 340 < n ∨ ps.length ≠ 4 + 12 * n then s.bad r .badLength
  else if getLe ps 2 2 ≠ 0 then s.bad r .badAddress
  else
    let es := entries ps n
    match s.stageAll s.doms 0 es with
    | .error (i, st, nm) => s.refuse r st nm i
    | .ok doms =>
      let d := s.domOfAddr ((expand (es.getD 0 (0, 0)).1).getD 0 0)
      { s with doms := doms }.ok r (le 2 n ++ le 2 (doms.getD d .reset).staged.length)

/-! ### Live writes (R19) -/

/-- Is any power-good input deasserted, or the latest AVS read-back in disagreement (R483)? -/
def State.supplyBad (s : State) : Bool :=
  let p := s.sys.pins
  !p.pgCore || !p.pgAna || !p.pgHv || !s.sys.avsOk

/-- Why a live write of one field is refused. -/
def State.liveBar (s : State) (a v : Nat) : Option (Status × String) :=
  match fieldCls a with
  | none => some (.badAddress, "BAD_ADDRESS")
  | some .l =>
    if 2 ^ fieldWidth a ≤ v ∨ reservedIn a v then some (.conflict, "RESERVED")
    else if s.cutField a then some (.hwFault, "HW_FAULT")
    else if isLtxSquelch a ∧ v = 0 then
      (if s.sys.txDis then some (.precondition, "TX_DIS")
      else if s.sys.thermShut then some (.precondition, "THERMAL") else none)
    else if isHtxSquelch a ∧ v = 0 ∧ s.sys.thermShut then some (.precondition, "THERMAL")
    else if a = BDAC.RELEASE ∧ v ≠ 0 then
      (if s.sys.txDis then some (.precondition, "TX_DIS")
      else if s.sys.thermShut then some (.precondition, "THERMAL") else none)
    else if blkOf a = 0x41 ∧ 0x0100 ≤ offOf a ∧ offOf a ≤ 0x0117 then
      let c := offOf a - 0x0100
      (if bits (s.rd (BDAC.LOOP_CFG c)) 31 31 = 1 then some (.precondition, "LOOP_OWNED")
      else if !codeOk v (s.rd (BDAC.SPAN c)) (s.rd (BDAC.VMAX c)) then some (.conflict, "BDAC-1") else none)
    else if a = OBS.FAULT_CLR ∧ v.testBit 4 ∧ s.supplyBad then some (.precondition, "SUPPLY")
    else none
  | some _ => some (.denied, "ACCESS")

/-- The first boundary, after this tick, that every die of a list has (R12). -/
def State.nextBoundary (s : State) (ds : List Nat) : Nat :=
  let t := addTicks s.tickno 1
  if ds.all fun d => s.dieTicks d t then t else addTicks s.tickno 2

/-- LIVE_WRITE (R305). -/
def svcLiveWrite : Service := fun r ps s =>
  let n := getLe ps 0 2
  if n = 0 ∨ 340 < n ∨ ps.length ≠ 4 + 12 * n then s.bad r .badLength
  else if getLe ps 2 2 ≠ 0 then s.bad r .badAddress
  else
    let es := entries ps n
    let bar := (List.range n).findSome? fun i =>
      let e := es.getD i (0, 0)
      ((expand e.1).findSome? fun a => s.liveBar a e.2).map fun b => (i, b)
    match bar with
    | some (i, st, nm) => s.refuse r st nm i
    | none =>
      let ws := es.flatMap fun e => (expand e.1).map fun a => (a, e.2)
      let due := s.nextBoundary (ws.map fun w => dieOfAddr w.1)
      { s with live := s.live ++ ws.map fun (w : Nat × Nat) => LiveWrite.mk w.1 w.2 due }.ok r (le 8 due)

/-- Clear bits of a field. -/
def State.clearBits (s : State) (a mask : Nat) : State := s.wr a (s.rd a - (s.rd a &&& mask))

/-- A field whose write is an action (it reads as 0) acts: the write of `v` takes effect. -/
def State.liveAct (s : State) (a v : Nat) : Option State :=
  if a = HK.SEQ_GO then some (if v = 1 ∧ s.rd HK.SEQ_TRIG = 4 ∧ s.adcOn then s.hkTrigger else s)
  else if a = HK.RING_MARK_SET then
    some ((List.range 8).foldl (fun s k => if v.testBit k then s.ringMark k (s.ring k).tot else s) s)
  else if a = HK.WIN_CLR then some (s.clearBits HK.WIN_STAT v)
  else if a = BDAC.RELEASE then
    some ((List.range 24).foldl (fun s c => if v.testBit c then s.biasRelease c else s) s)
  else if a = BDAC.SC_CLR then some (s.clearBits BDAC.SC_STAT v)
  else if a = RST.CAUSE_CLR then some (s.clearBits RST.CAUSE v)
  else if a = OBS.IRQ_CLR then some (s.clearBits OBS.IRQ_STAT (v &&& 10))
  else if a = OBS.LANE_CHG_CLR then
    let s := s.clearBits OBS.LANE_CHG v
    some (s.wrBit OBS.IRQ_STAT 2 (decide (s.rd OBS.LANE_CHG ≠ 0)))
  else if a = OBS.FAULT_CLR then some (if v.testBit 4 ∧ !s.supplyBad then s.faultOff 4 else s)
  else if a = OBS.CAP_MARK_SET then
    some ((List.range 8).foldl (fun s n => if v.testBit n then s.capMark n else s) s)
  else if a = OBS.HIST_GO then
    some ((List.range 8).foldl (fun s n => if v.testBit n then s.histStart n else s) s)
  else if a = fld 0x60 1 0x0102 then some (s.clearBits (fld 0x60 1 0x0101) v)
  else if a = fld 0x60 0 0x0013 then some (if v = 1 then s.modSys fun y => { y with resyncGo := true } else s)
  else none

/-- A value of an L field takes effect, live or staged. -/
def State.liveApply (s : State) (a v : Nat) : State :=
  match s.liveAct a v with
  | some s => s
  | none =>
    if isLtxSquelch a then
      let n := instOf a
      (if v = 1 then (if s.rd a = 1 then s else s.txSquelch n)
      else if s.sys.txDis ∨ s.sys.thermShut then s
      else
        let s := s.wr a 0
        let s := if s.rd (LTX.STATE n) = 3 then s.setTxState n 2 else s
        (s.wrBit (LTX.FLAGS n) 0 false).modTx n fun t => { t with gated := decide (s.rd (LTX.STATE n) ≠ 2) })
    else if isHtxSquelch a then (if v = 0 ∧ s.sys.thermShut then s else (s.wr a v).htxFlags (instOf a))
    else s.wr a v

/-- A live write also reaches the staged image and the frozen image that hold the field (R19), at the boundary at which
it takes effect. DESIGN CHOICE: a value staged between its acceptance and that boundary is overwritten too; R19 does not
say which of the two stays staged (log 157). -/
def Domain.liveUpdate (d : Domain) (a v : Nat) : Domain :=
  let up := fun (l : List (Nat × Nat)) => l.map fun x => if x.1 = a then (a, v) else x
  { d with staged := up d.staged, commit := d.commit.map fun c => { c with frozen := up c.frozen } }

/-- Every live write that is due takes effect, in the order received. -/
def State.liveEffects (s : State) : State :=
  let due := s.live.filter s.liveDue
  let s := { s with live := s.live.filter fun w => !s.liveDue w }
  due.foldl (fun s w => (s.liveApply w.addr w.value).modDom (s.domOfAddr w.addr) fun d => d.liveUpdate w.addr w.value) s

/-- LIVE_WRITE_EFFECT (R19). -/
def execLiveWriteEffect (s : State) : Result := finish s <| .next (if s.dueBefore .live then s else s.liveEffects)

end Sys2Proof.Machine
end

