-- ==== Sys2Proof/Machine/Agree.lean ====
section
/-!
DEFINITION. The agreement rules a commit and the boot commit check (R31, R86, R115, R143, R175, R200, R232, R307, R330,
R364, R381, R402, R435, R465, R486).
-/

namespace Sys2Proof.Machine

/-- What a commit would make of the machine: the staged fields, the table sets and the bundle it carries. -/
structure Cand where
  s : State
  staged : List (Nat × Nat)
  tables : List TableSet
  bundle : Bundle
  /-- The commit carries a staged bundle (R289, R331). -/
  newBundle : Bool := false
  /-- The boot commit: every rule is checked (R328). -/
  all : Bool := false
  /-- The boundary at which the commit takes effect. -/
  target : Option Nat := none

/-- The value of a field after the commit; tap counts and class ceilings are those the integrator commits (R369). -/
def Cand.get (c : Cand) (a : Nat) : Nat :=
  match c.staged.find? fun x => decide (x.1 = a) with
  | some x => x.2 % 2 ^ fieldWidth a
  | none =>
    if blkOf a = 0x10 ∧ offOf a = 0x0020 then (c.s.rxL (instOf a)).nomTaps
    else if blkOf a = 0x10 ∧ offOf a = 0x0061 then (c.s.rxL (instOf a)).comCeil
    else c.s.rd a
def Cand.getS (c : Cand) (a : Nat) : Int := sgn (fieldWidth a) (c.get a)
/-- Does the commit change a field? -/
def Cand.has (c : Cand) (a : Nat) : Bool := c.staged.any fun x => decide (x.1 = a)
/-- The words of a table set the commit makes active. -/
def Cand.table (c : Cand) (kind inst : Nat) : Option (List Nat) :=
  (c.tables.find? fun x => decide (x.kind = kind ∧ x.inst = inst)).map (·.words)
/-- The schedule set a commit makes active: one loaded for the Joiner, else that of the bundle it carries (R211). -/
def Cand.schedule (c : Cand) (d : Nat) : Option (List Nat) :=
  (c.table 0x0D d).or (if c.newBundle then c.bundle.sched else none)
/-- A failure of a rule. -/
abbrev Fail := Option (String × Nat)
/-- A rule that holds where `ok`, with the address its failure names. -/
def rule (ok : Bool) (name : String) (addr : Nat) : Fail := if ok then none else some (name, addr)
/-- The first failure. -/
def firstFail (l : List Fail) : Fail := l.findSome? id
/-- A rule over fields: the first that breaks it. -/
def ruleAll (as : List Nat) (ok : Nat → Bool) (name : String) : Fail :=
  (as.find? fun a => !ok a).map fun a => (name, a)

/-- Staged fields of a block instance with a bit above their width: always RESERVED (R16, R324). -/
def Cand.wide (c : Cand) (b i : Nat) : Fail :=
  (c.staged.find? fun x => decide (blkOf x.1 = b ∧ instOf x.1 = i ∧ 2 ^ fieldWidth x.1 ≤ x.2)).map fun x => ("RESERVED", x.1)
/-- Staged fields of a block instance with a reserved bit or value within their width. -/
def Cand.reserved (c : Cand) (b i : Nat) (name : String) : Fail :=
  (c.staged.find? fun x => decide (blkOf x.1 = b ∧ instOf x.1 = i) && reservedIn x.1 x.2).map fun x => (name, x.1)

/-- Does the commit change a field of a block instance? -/
def Cand.block (c : Cand) (b i : Nat) : Bool := c.all || c.staged.any fun x => decide (blkOf x.1 = b ∧ instOf x.1 = i)
/-- The committed rate mode of a die. -/
def Cand.rate (c : Cand) (d : Nat) : Nat := c.get (if d = 0 then DEV.RATE_MODE0 else DEV.RATE_MODE1)
/-- Does the commit change the modes of a die? A change of FEC mode touches its line lanes only (R331). -/
def Cand.modes (c : Cand) (d : Nat) : Bool :=
  c.has (if d = 0 then DEV.RATE_MODE0 else DEV.RATE_MODE1) || c.has (if d = 0 then DEV.FEC_MODE0 else DEV.FEC_MODE1)
/-- Does the commit change a field or table of a line lane? -/
def Cand.line (c : Cand) (n : Nat) : Bool :=
  c.block 0x10 n || c.block 0x11 n || c.block 0x12 n || c.block 0x13 n || c.modes (dieOfLine n) ||
  [1, 2, 3, 7, 9, 0x0A].any fun k => (c.table k n).isSome
/-- Does the commit change a field or table of a host lane? -/
def Cand.host (c : Cand) (k : Nat) : Bool :=
  c.block 0x20 k || c.block 0x21 k || c.has (if dieOfHost k = 0 then DEV.RATE_MODE0 else DEV.RATE_MODE1) ||
    (c.table 8 k).isSome
/-- Does the commit change the schedule or a field of a Joiner? -/
def Cand.joiner (c : Cand) (d : Nat) : Bool := c.block 0x30 d || (c.schedule d).isSome

/-! ### Line lanes (Tables 2-15, 3-12, 4-13, 5-9) -/

/-- The tap limit of a lane's region with the committed FFE_MAIN (R369). -/
def Cand.tapLimit (c : Cand) (n : Nat) : Nat :=
  tapLimitFor (c.s.rd (THM.RG_LEVEL (regionOfLine n))) (c.get (LRX.FFE_MAIN n))

/-- Is a terminal row reached from row `r` of a gain table (R68)? -/
def gainEnds (words : List Nat) (r : Nat) : Bool := (List.range 8).any fun i => decide (r ≤ i ∧ words.getD (1 + i) 0 % 65536 = 0)

/-- LRX-1 to LRX-5. -/
def Cand.lrx (c : Cand) (n : Nat) : Fail :=
  let taps := c.get (LRX.FFE_TAPS n)
  let main := c.get (LRX.FFE_MAIN n)
  let decl := match c.table 3 n with
    | some w => w.getD 1 0
    | none => (c.s.rxL n).ffeDecl
  let gain := match c.table 9 n with
    | some w => wordsOf w
    | none => (c.s.rxL n).gain
  let near := fun (a : Nat) => decide (((c.get a : Int) - c.s.rd a).natAbs ≤ 2)
  firstFail [
    rule (decide (taps ∈ [17, 21, 25, 29, 33]) && decide (decl = min taps (c.tapLimit n))) "LRX-1" (LRX.FFE_TAPS n),
    rule (decide (2 ≤ main ∧ main ≤ 28)) "LRX-2" (LRX.FFE_MAIN n),
    rule (decide (main + 5 ≤ taps)) "LRX-2" (LRX.FFE_TAPS n),
    rule (decide (c.get (LRX.CTLE_PEAK n) ≤ 24)) "LRX-3" (LRX.CTLE_PEAK n),
    rule (decide (c.get (LRX.VGA_GAIN n) ≤ 56)) "LRX-3" (LRX.VGA_GAIN n),
    rule (decide (c.get (LRX.CTX_CLASS_CEIL n) ≤ 16)) "LRX-3" (LRX.CTX_CLASS_CEIL n),
    if c.s.lineUp n then ruleAll [LRX.CTLE_PEAK n, LRX.VGA_GAIN n] near "LRX-4" else none,
    rule (gainEnds gain 0 && gainEnds gain (gain.getD 0 0 % 8)) "LRX-5" (fld 0x10 n 0xFFFF)]

/-- Does a table set in force after the commit declare the committed rate mode? -/
def Cand.rateOk (c : Cand) (kind n : Nat) (t : Tbl) : Bool :=
  match c.table kind n with
  | some w => decide (w.getD 1 0 % 4 = c.rate (dieOfLine n))
  | none => (c.s.tbl n t).active.rate.all fun r => decide (r = c.rate (dieOfLine n))

/-- LTX-1 to LTX-3. -/
def Cand.ltx (c : Cand) (n : Nat) : Fail :=
  let sum := ((List.range 9).map fun k => (c.getS (LTX.FIR_TAP n k)).natAbs).sum
  firstFail [
    rule (decide (c.get (LTX.FIR_MAIN n) ≤ 4)) "LTX-1" (LTX.FIR_MAIN n),
    rule (decide (sum ≤ 256)) "LTX-1" (LTX.FIR_TAP n 0),
    rule (!c.s.lineUp n || decide (((c.get (LTX.SWING n) : Int) - c.s.rd (LTX.SWING n)).natAbs ≤ 4)) "LTX-2" (LTX.SWING n),
    rule (c.rateOk 2 n .shp) "LTX-3" (LTX.SHP_SET_ID n)]


/-- CTX-1 and CTX-2: a commit moves no replica. -/
def Cand.ctx (c : Cand) (n : Nat) : Fail := firstFail [
  rule (c.rateOk 1 n .ctx) "CTX-1" (CTX.SET_ID n),
  rule (!(c.s.tbl n .ctx).powered || c.s.mapDistinct n .ctx) "CTX-2" (CTX.REPL_MAP n 0),
  rule (!(c.s.tbl n .shp).powered || c.s.mapDistinct n .shp) "CTX-2" (CTX.SHP_MAP n 0)]

/-- FEC-1 and FEC-2. -/
def Cand.fec (c : Cand) (n : Nat) : Fail :=
  let on := fun (w : Nat) => decide (bits w 7 7 = 1)
  let sched := match c.table 0x0A n with
    | some w => w.drop 1
    | none => (List.range 16).map fun k => c.s.rd (FEC.SCHED n k)
  let e := (sched.filter on).length
  let masks := (sched.filter on).map fun w => bits w 5 0
  let ok1 := decide (sched.getD 0 0 = 128) && decide (8 ≤ e) && (sched.take e).all on && decide (masks.eraseDups.length = e)
  let gone := ((c.s.rxL n).removed.filter fun p => on (sched.getD p 0)).length
  let usable := ((List.range 34).filter fun i => c.s.bit (FEC.EVAL_HEALTH n) i).length
  firstFail [
    rule ((c.table 0x0A n).isNone || ok1) "FEC-1" (FEC.SCHED_SET_ID n),
    rule (decide (2 * (e - gone) ≤ usable)) "FEC-2" (FEC.SCHED_SET_ID n)]

/-! ### Host lanes (Table 6-11) -/

/-- HRX-1. -/
def Cand.hrx (c : Cand) (k : Nat) : Fail := rule (c.bundle.hasStart k (c.get (HRX.RX_PRESET k))) "HRX-1" (HRX.RX_PRESET k)

/-- HTX-1 to HTX-3. -/
def Cand.htx (c : Cand) (k : Nat) : Fail :=
  let p := c.get (HTX.TX_PRESET k)
  firstFail [
    rule (decide (1 ≤ p ∧ p ≤ 5) && txTapsOk (c.bundle.preset k p)) "HTX-1" (HTX.TX_PRESET k),
    rule (decide (c.get (HTX.LINE_LOSS_ACT k) ≤ 2)) "HTX-2" (HTX.LINE_LOSS_ACT k),
    rule (decide (1 ≤ c.get (HTX.LINE_OK_TICKS k))) "HTX-2" (HTX.LINE_OK_TICKS k),
    rule (!c.s.hostUp k || decide (((c.get (HTX.SWING k) : Int) - c.s.rd (HTX.SWING k)).natAbs ≤ 2)) "HTX-3" (HTX.SWING k)]

/-! ### Joiners (Table 7-18) -/

/-- Entry addresses of a bundle's user program: 32-bit words for entries 0xC0 to 0xFF (log 17). -/
def Bundle.userEntry (b : Bundle) (e : Nat) : Nat :=
  match b.sections.find? (fun x => decide (x.typ = 0x0E)) with
  | some x => x.words.getD (2 * (e - 0xC0)) 0 + 65536 * x.words.getD (2 * (e - 0xC0) + 1) 0
  | none => 0

/-- Dies a Joiner serves (R42): outside split mode either Joiner serves both. -/
def State.served (s : State) (d : Nat) : List Nat := [0, 1].filter fun x => decide (s.servJ x = d) || !s.split

/-- Is a slot one of the factory schedule's that split mode replaces by IDLE (R208)? -/
def State.replaced (s : State) (d k w : Nat) : Bool :=
  s.split && decide (w = factorySlot k) &&
  ((decide (slotKind w = 2) && decide (dieOfLine (slotTarget w) ≠ d)) ||
    (decide (slotKind w = 3) && decide (slotTarget w / 2 ≠ d)))

/-- JNR-1 to JNR-6; a commit that brings a bundle and changes nothing of the Joiner checks JNR-4 alone (R331). -/
def Cand.jnr (c : Cand) (d : Nat) : Fail :=
  let s := c.s
  let set := (c.schedule d).map wordsOf
  let all := match set with
    | some w => (List.range 32).map fun k => w.getD (1 + k) 0
    | none => (List.range 32).map fun k => s.rd (JNR.SCHED d k)
  let id := match set with
    | some w => w.getD 0 0 % 65536
    | none => s.rd (JNR.SCHED_SET_ID d)
  let ws := (List.range 32).map fun k => let w := all.getD k 0; if id = 0 ∧ s.replaced d k w then 0 else w
  let a := JNR.SCHED_SET_ID d
  let div0 := fun (w : Nat) => decide (slotDiv w = 0)
  let coming := fun (n : Nat) => s.lanes.any fun q => q.up && decide (q.line.testBit n ∧ some q.target = c.target)
  let lines := (List.range 8).filter fun n => (s.served d).contains (dieOfLine n) && (s.lineUp n || coming n)
  let regions := (List.range 4).filter fun r => (s.served d).contains (r / 2) && (List.range 4).any fun j => s.hostUp (4 * r + j)
  let lineOk := fun (n : Nat) => ws.any fun w => div0 w && decide ((slotKind w = 2 ∨ slotKind w = 6) ∧ slotTarget w = n)
  let hostOk := fun (r : Nat) => ws.any fun w => decide (slotKind w = 3 ∧ slotTarget w = r)
  let entryOk := fun (w : Nat) =>
    if slotKind w = 0 then true
    else if slotKind w = 6 then
      decide (0xC0 ≤ slotEntry w) && decide (c.bundle.userEntry (slotEntry w) ≠ 0) && isTarget (slotTarget w) &&
        decide (c.bundle.grant (clusterOf (slotTarget w)) ≠ 0)
    else decide (slotEntry w < 0xC0)
  let wordOk := fun (w : Nat) => decide (slotKind w ≠ 7 ∧ w % 2 ^ 11 = 0 ∧ slotPhase w < 2 ^ slotDiv w)
  let dieOk := fun (w : Nat) =>
    match slotKind w with
    | 2 => (s.served d).contains (dieOfLine (slotTarget w)) && decide (slotTarget w < 8)
    | 3 => (s.served d).contains (slotTarget w / 2) && decide (slotTarget w < 4)
    | 6 => (s.served d).contains (dieOfTarget (slotTarget w))
    | _ => true
  let jnr4 := rule (ws.all entryOk) "JNR-4" a
  if !c.joiner d then (if c.newBundle then jnr4 else none)
  else firstFail [
    rule ([0, 31].all fun k => decide (slotKind (ws.getD k 0) = 1) && div0 (ws.getD k 0)) "JNR-1" a,
    rule (ws.any fun w => decide (slotKind w = 5) && div0 w) "JNR-2" a,
    rule (lines.all lineOk && regions.all hostOk) "JNR-3" a,
    jnr4,
    rule (ws.all wordOk) "JNR-5" a,
    rule (decide (1 ≤ c.get (JNR.LATE_LIMIT d))) "JNR-5" (JNR.LATE_LIMIT d),
    c.reserved 0x30 d "JNR-5",
    rule (ws.all dieOk) "JNR-6" a]

/-! ### Housekeeping and bias (Table 12-12) -/

/-- Is a ring configured after the commit? -/
def Cand.ringOn (c : Cand) (k : Nat) : Bool := decide (c.get (HK.RING_LEN k) ≠ 0)
/-- Is a filter enabled after the commit? -/
def Cand.filtOn (c : Cand) (f : Nat) : Bool := decide (bits (c.get (HK.FILT_CFG f)) 7 7 = 1)
/-- Is a step or filter source present after the commit? -/
def Cand.sourceOn (c : Cand) (filt : Bool) (i : Nat) : Bool :=
  if filt then decide (i < 8) && c.filtOn i else decide (i < c.get HK.SEQ_LEN)

/-- HK-1 to HK-5. -/
def Cand.hk (c : Cand) : Fail :=
  let len := c.get HK.SEQ_LEN
  let steps := List.range (min len 64)
  let stepOk := fun (a : Nat) =>
    let w := c.get a
    decide (bits w 4 0 ≤ 26) && (decide (bits w 15 15 = 0) || c.ringOn (bits w 14 12)) &&
      (decide (bits w 19 19 = 0) || c.filtOn (bits w 18 16))
  let ringOk := fun (a : Nat) =>
    let k := offOf a - 0x00A0
    let b := c.get a
    let l := c.get (HK.RING_LEN k)
    !c.ringOn k || (decide (b % 16 = 0 ∧ l % 16 = 0 ∧ b + l ≤ 4096) &&
      (List.range 8).all fun j => decide (j = k) || !c.ringOn j ||
        !meets b l (c.get (HK.RING_BASE j)) (c.get (HK.RING_LEN j)))
  let coef := fun (f sec i : Nat) => c.getS (HK.FILT_COEF (10 * f + 5 * sec + i))
  let stable := fun (f sec : Nat) => decide ((coef f sec 4).natAbs < 2 ^ 18) &&
    decide (((coef f sec 3).natAbs : Int) < 2 ^ 18 + coef f sec 4)
  let filtOk := fun (a : Nat) =>
    let f := offOf a - 0x0108
    let fed := (steps.filter fun k => let w := c.get (HK.STEP k); decide (bits w 19 19 = 1 ∧ bits w 18 16 = f)).length
    !c.filtOn f || (decide (fed = 1) && (decide (c.get (HK.FILT_PRESET f) ≠ 0) ||
      (stable f 0 && (decide (bits (c.get a) 6 6 = 0) || stable f 1))))
  let winOk := fun (a : Nat) =>
    let w := offOf a - 0x0180
    let v := c.get a
    decide (bits v 31 31 = 0) || (decide (c.get (HK.WIN_LO w) ≤ c.get (HK.WIN_HI w) ∧ 1 ≤ bits v 21 18) &&
      c.sourceOn (decide (bits v 30 30 = 1)) (bits v 29 24) && (decide (bits v 16 16 = 0) || c.ringOn (bits v 14 12)))
  firstFail [
    rule (decide (1 ≤ len ∧ len ≤ 64)) "HK-1" HK.SEQ_LEN,
    ruleAll (steps.map HK.STEP) stepOk "HK-1",
    ruleAll ((List.range 8).map HK.RING_BASE) ringOk "HK-2",
    ruleAll ((List.range 8).map HK.FILT_PRESET) (fun a => decide (c.get a ≤ 5)) "HK-3",
    ruleAll ((List.range 8).map HK.FILT_CFG) filtOk "HK-3",
    ruleAll ((List.range 16).map HK.WIN_CFG) winOk "HK-4",
    rule (decide (c.get HK.SEQ_TRIG ≤ 5)) "HK-5" HK.SEQ_TRIG,
    rule (decide (1 ≤ c.get HK.SEQ_PERIOD)) "HK-5" HK.SEQ_PERIOD,
    rule (decide (1 ≤ c.get HK.SEQ_TICKS)) "HK-5" HK.SEQ_TICKS]

/-- BDAC-1 and BDAC-2. -/
def Cand.bdac (c : Cand) : Fail :=
  let fits := fun (code i : Nat) => codeOk code (c.get (BDAC.SPAN i)) (c.get (BDAC.VMAX i))
  let loopOk := fun (a : Nat) =>
    let i := offOf a - 0x0200
    let w := c.get a
    decide (bits w 31 31 = 0) || (decide (c.get (BDAC.LOOP_MIN i) ≤ c.get (BDAC.LOOP_MAX i)) &&
      fits (c.get (BDAC.LOOP_MAX i)) i && c.sourceOn (decide (bits w 30 30 = 1)) (bits w 29 24))
  firstFail [
    ruleAll ((List.range 24).map BDAC.CODE) (fun a => fits (c.get a) (offOf a - 0x0100)) "BDAC-1",
    ruleAll ((List.range 24).map BDAC.LOOP_CFG) loopOk "BDAC-2"]

/-! ### The remaining blocks (Tables 11-3, 13-7, 14-11, 15-15, 16-9, 17-7) -/

/-- DEV-1 and DEV-2; a staged image holds only fields of its own domain, so DEV-3 always holds. -/
def Cand.dev (c : Cand) : Fail := firstFail [
  ruleAll [DEV.RATE_MODE0, DEV.RATE_MODE1] (fun a => decide (c.get a ≤ 1)) "DEV-1",
  rule (c.s.split || decide (c.get DEV.RATE_MODE0 = c.get DEV.RATE_MODE1)) "DEV-2" DEV.RATE_MODE0,
  rule (c.s.split || decide (c.get DEV.FEC_MODE0 = c.get DEV.FEC_MODE1)) "DEV-2" DEV.FEC_MODE0]

/-- THM-1 and THM-2. -/
def Cand.thm (c : Cand) : Fail :=
  let warn := c.getS THM.WARN_THR
  let throt := c.getS THM.THROT_THR
  let shut := c.getS THM.SHUT_THR
  let hyst := c.get THM.HYST
  firstFail [
    rule (decide (warn < throt ∧ throt < shut)) "THM-1" THM.WARN_THR,
    rule (decide (100 ≤ shut ∧ shut ≤ 120)) "THM-1" THM.SHUT_THR,
    rule (decide (shut - hyst > throt)) "THM-1" THM.THROT_THR,
    rule (decide (1 ≤ hyst ∧ hyst ≤ 7)) "THM-1" THM.HYST,
    rule (decide (1 ≤ c.get THM.NEAR ∧ c.get THM.NEAR ≤ 15)) "THM-2" THM.NEAR,
    rule (decide (1 ≤ c.get THM.RATE_STEP)) "THM-2" THM.RATE_STEP,
    rule (decide (c.get THM.THROT_MAX ≤ 11)) "THM-2" THM.THROT_MAX]

/-- THM-3: a lane of a throttled region whose FFE_TAPS the commit stages (R372). -/
def Cand.thm3 (c : Cand) : Fail :=
  ruleAll ((List.range 8).map LRX.FFE_TAPS) (fun a =>
    let n := instOf a
    !c.has a || !c.s.lineUp n || decide (c.s.rd (THM.RG_LEVEL (regionOfLine n)) = 0) ||
      decide (c.get a ≤ c.tapLimit n)) "THM-3"

/-- PWR-1 and PWR-2; no PWR field has a reserved bit within its width. -/
def Cand.pwr (c : Cand) : Fail := firstFail [
  rule (decide (c.get PWR.RET_VCORE ≤ 36)) "PWR-1" PWR.RET_VCORE,
  rule (decide (1 ≤ c.get PWR.WAKE_RETRY_MS)) "PWR-2" PWR.WAKE_RETRY_MS]

/-- RST-1; RST-2 has no bit within a field's width to cover. -/
def Cand.rst (c : Cand) : Fail := firstFail [
  rule (decide (10 ≤ c.get RST.WDT_MS)) "RST-1" RST.WDT_MS,
  rule (decide (1 ≤ c.get RST.WDT_LIMIT ∧ c.get RST.WDT_LIMIT ≤ 15)) "RST-1" RST.WDT_LIMIT]

/-- Is a Tenon port used in a role (Table 16-1)? -/
def portOf (role p : Nat) : Bool := decide (role = 2 ∨ (role = 1 ∧ p = 1))

/-- TEN-1 to TEN-3 on one port. -/
def Cand.ten (c : Cand) (p : Nat) : Fail :=
  let role := c.s.rd DEV.ROLE
  let mode := c.get (TEN.TSYNC_MODE p)
  firstFail [
    rule (decide (mode ≤ 2 ∧ ¬ (mode = 2 ∧ role = 2))) "TEN-1" (TEN.TSYNC_MODE p),
    rule (decide (c.get (TEN.TSYNC_DIV p) ≤ 20)) "TEN-1" (TEN.TSYNC_DIV p),
    rule (decide (c.get (TEN.EN p) = 0) || portOf role p) "TEN-2" (TEN.EN p),
    rule ((fieldRow (TEN.FWD_TIMEOUT_MS p)).isNone || decide (1 ≤ c.get (TEN.FWD_TIMEOUT_MS p))) "TEN-3"
      (TEN.FWD_TIMEOUT_MS p),
    rule (decide (c.get (TEN.JOIN_WAIT_MS p) ≤ c.get (TEN.JOIN_WAIT_COLD_MS p))) "TEN-3" (TEN.JOIN_WAIT_MS p)]

/-- OBS-1 and OBS-2. -/
def Cand.obs (c : Cand) : Fail := firstFail [
  ruleAll ((List.range 8).map OBS.HIST_CFG) (fun a => decide (bits (c.get a) 29 28 ≤ 2 ∧ bits (c.get a) 27 24 ≤ 8)) "OBS-1",
  ruleAll ((List.range 8).map OBS.HIST_CFG) (fun a => decide (c.get a % 4096 = 0)) "OBS-2",
  ruleAll ((List.range 8).map OBS.HIST_TICKS) (fun a => decide (1 ≤ c.get a)) "OBS-2"]

/-- The rules of one block instance, in their order. -/
def Cand.rules (c : Cand) (b i : Nat) : Fail :=
  let on := fun (x : Bool) (f : Fail) => if x then f else none
  match b with
  | 0x01 => on (c.block b i) c.dev
  | 0x10 => on (c.line i) (c.lrx i)
  | 0x11 => on (c.line i) (c.ltx i)
  | 0x12 => on (c.line i) (c.ctx i)
  | 0x13 => on (c.line i) (c.fec i)
  | 0x20 => on (c.host i || c.newBundle) (c.hrx i)
  | 0x21 => on (c.host i) (c.htx i)
  | 0x30 => c.jnr i
  | 0x40 => on (c.block 0x40 0 || c.block 0x41 0) c.hk
  | 0x41 => on (c.block 0x40 0 || c.block 0x41 0) c.bdac
  | 0x42 => (on (c.block b i) c.thm).or c.thm3
  | 0x50 => on (c.block b i) c.pwr
  | 0x51 => on (c.block b i) c.rst
  | 0x60 => on (c.block b i) (c.ten i)
  | 0x70 => on (c.block b i) c.obs
  | _ => none

/-- The checks of one block instance: bits above a width, the rules, then reserved values no rule covers. -/
def Cand.blockFail (c : Cand) (b i : Nat) : Fail := firstFail [c.wide b i, c.rules b i, c.reserved b i "RESERVED"]

/-- The blocks by code. -/
def blocks : List Nat := [0x01, 0x10, 0x11, 0x12, 0x13, 0x20, 0x21, 0x30, 0x40, 0x41, 0x42, 0x50, 0x51, 0x60, 0x70]

/-- The first failing rule by block code, instance and rule number (R307). -/
def Cand.fail (c : Cand) : Fail :=
  blocks.findSome? fun b => (List.range (blockInstances b)).findSome? fun i => c.blockFail b i

end Sys2Proof.Machine
end

