-- ==== Sys2Proof/Machine/TenOps.lean ====
section
/-!
DEFINITION. Operations of the Tenon link the commands share: chain state, presence, forwarded requests, ports (R437, R438,
R443 to R445, R451, R455, R456, R460, R461).
-/

namespace Sys2Proof.Machine

/-! ### Chain state (R451) -/

/-- Change the chain state, logged. -/
def State.setChain (s : State) (v : Nat) : State :=
  if s.rd (TEN.CHAIN_STATE 0) = v then s
  else (s.wr (TEN.CHAIN_STATE 0) v).logEv
    { level := 5, irq := decide (v = 5 ∨ v = 6), code := 0x6002, detail := v }
/-- A joined rafter loses the upstream time; the slew stops with the tick lengths already applied (Table 16-7). -/
def State.chainLost (s : State) : State :=
  if s.joined then (s.setChain 5).modTen fun t => { t with adj := 0, slewing := false } else s

/-! ### Presence and forwarded requests (R456, R460) -/

/-- Forwarded requests to lost rafters end (R456). -/
def State.fwdLost (s : State) (gone : Nat → Bool) : State :=
  let out := s.ten.fwd.filter fun f => gone f.addr
  let s := s.modTen fun t => { t with fwd := t.fwd.filter fun f => !gone f.addr }
  out.foldl (fun s f => (s.inc (TEN.FWD_TIMEOUT_CNT 1)).refuse f.ref .timeout "RAFTER_LOST") s

/-- PRESENT changes on the ridge: logged, and requests to absent rafters end. -/
def State.setPresent (s : State) (v : Nat) : State :=
  if s.rd (TEN.PRESENT 1) = v then s
  else
    let s := (s.wr (TEN.PRESENT 1) v).logEv { level := 5, irq := true, inst := 1, code := 0x6004, detail := v }
    s.fwdLost fun a => !v.testBit a

/-- Tell the upstream neighbour the highest address at or beyond this rafter (R438). -/
def State.enumAck (s : State) : State :=
  let a := s.rd (TEN.ADDR 0)
  if s.rd DEV.ROLE = 2 ∧ a ≠ 0 then
    s.sendBlock 0 (block 0x69 [if s.portUp 1 ∨ s.bit (TEN.FLAGS 1) 5 then max a (s.rd (TEN.CHAIN_LEN 1)) else a])
  else s

/-- A port is no longer UP. A partner that has sent SLEEP_NOTE stays present (R461). -/
def State.portGone (s : State) (p : Nat) : State :=
  let asleep := s.bit (TEN.FLAGS p) 5
  if p = 0 then (s.modTen fun t => { t with load := none }).chainLost
  else
    let s := if asleep then s else s.wr (TEN.CHAIN_LEN 1) 0
    if s.rd DEV.ROLE = 1 then (if asleep then s else s.setPresent 0) else if asleep then s else s.enumAck

/-! ### Ports (R443) -/

/-- A training begins at step 1 of Table 16-4; the corrections of the last one are dropped (R444). -/
def State.trainStart (s : State) (p : Nat) : State :=
  let s := ((s.wr (TEN.STATE p) 1).inc (TEN.TRAIN_CNT p)).setDom (94 + p) 1
  let s := s.wr (TEN.FLAGS p) (s.rd (TEN.FLAGS p) &&& 0xE3)
  (s.modPort p fun t => { t with step := 1, waiting := false, blocks := if t.waking.isSome then t.blocks else [], msgs := [] }).wr (PWR.CLK_STATE 45) 2

/-- A port goes off, or into listen mode: its outputs are idle. -/
def State.portOff (s : State) (p : Nat) (listen : Bool := false) : State :=
  let up := s.portUp p
  let s := s.wr (TEN.STATE p) (if listen then 3 else 0)
  let s := s.modPort p fun t => { t with step := 0, waiting := false, waking := none }
  let s := if up then s.portGone p else s
  let s := (if listen then s else s.setDom (94 + p) 0).wr (PWR.CLK_STATE (46 + p)) 0
  if s.rd (TEN.STATE (1 - p)) = 0 ∨ s.rd (TEN.STATE (1 - p)) = 3 then s.wr (PWR.CLK_STATE 45) 0 else s

/-- TEN.EN of a port takes a value. -/
def State.portEnable (s : State) (p : Nat) (on : Bool) : State :=
  let st := s.rd (TEN.STATE p)
  if on then
    if st = 1 ∨ st = 2 ∨ st = 4 then s
    else
      let s := if p = 0 ∧ s.rd (TEN.CHAIN_STATE 0) = 0 then s.setChain 1 else s
      s.trainStart p
  else if st = 0 then s
  else s.portOff p

end Sys2Proof.Machine
end

