-- ==== Sys2Proof/Machine/CommitCtl.lean ====
section
/-!
DEFINITION. The commit controllers: COMMIT, DISCARD, arming and the swap at the target boundary (R31 to R36, R43, R289,
R307, R309, R329).
-/

namespace Sys2Proof.Machine

/-! ### COMMIT (R31, R307) -/

/-- The dies of a commit domain. -/
def State.domDies (s : State) (d : Nat) : List Nat := if s.split then [d] else [0, 1]

/-- The first lawful boundary for dies `ds`: 32 ticks after the tick of receipt (R31, R12). -/
def State.earliest (s : State) (ds : List Nat) : Nat :=
  let t := addTicks s.tickno 32
  if ds.all fun d => s.dieTicks d t then t else addTicks s.tickno 33

/-- Is a target at least 32 ticks ahead and not past, modulo 2^48? -/
def State.leadOk (s : State) (target : Nat) : Bool :=
  decide (32 ≤ ticksSince target s.tickno ∧ ticksSince target s.tickno < 2 ^ 47)

/-- The candidate a domain's commit would make. -/
def State.cand (s : State) (m : Domain) : Cand :=
  { s := s, staged := m.staged, tables := m.held, bundle := m.bundle.getD s.sys.bundle, newBundle := m.bundle.isSome }

/-- Does a staged image hold a field of the lane or die a load addresses (R31, step 2)? -/
def refersTo (staged : List (Nat × Nat)) (kind inst : Nat) : Bool :=
  staged.any fun x =>
    let b := blkOf x.1
    if kind = 0x08 then (b = 0x20 || b = 0x21) && instOf x.1 = inst
    else if kind = 0x0D then (b = 0x30 && instOf x.1 = inst) ||
      (if inst = 0 then x.1 = DEV.RATE_MODE0 || x.1 = DEV.FEC_MODE0 else x.1 = DEV.RATE_MODE1 || x.1 = DEV.FEC_MODE1)
    else (b = 0x10 || b = 0x11 || b = 0x12 || b = 0x13) && instOf x.1 = inst

/-- A load of the domain, not yet HELD, that its staged image refers to. -/
def State.notResident (s : State) (d : Nat) (m : Domain) : Option Load :=
  s.loads.find? fun l => decide (s.domOfDie (dieOfLoad l.kind l.inst) = d) && refersTo m.staged l.kind l.inst

/-- Does a domain's staged content concern die 1? -/
def Domain.usesDie1 (m : Domain) : Bool :=
  m.staged.any (fun x => decide (dieOfAddr x.1 = 1)) || m.held.any fun x => decide (dieOfLoad x.kind x.inst = 1)

/-- Accept a commit: the image is frozen, a new one opens, and the publish paths it touches are held (R31, R35). -/
def State.acceptCommit (s : State) (r : ReqRef) (d target : Nat) : State :=
  let m := s.dom d
  let c : PendingCommit := ⟨target, false, m.staged, m.held, m.bundle, r⟩
  let s := s.modDom d fun m => { m with staged := [], held := [], bundle := none, commit := some c }
  let s := (s.pubs.filter fun p => c.touches p.tgt && p.live && decide (p.phase ≠ .armed)).foldl
    (fun s p => s.displace p.kind p.tgt) s
  s.accepted r (le 8 target ++ le 8 ((target + 2 ^ 48 - 1) % 2 ^ 48))

/-- COMMIT: pending, empty, run-locked, agreement, residency, target, in this order (R307). -/
def svcCommit : Service := fun r ps s =>
  let target := getLe ps 0 8
  let d := getLe ps 8 1
  if !okLen ps [12] then s.bad r .badLength
  else if 2 ^ 48 ≤ target ∨ 1 < d ∨ (d = 1 ∧ !s.split) ∨ getLe ps 9 3 ≠ 0 then s.bad r .badAddress
  else
    let m := s.dom d
    let when_ := if target = 0 then s.earliest (s.domDies d) else target
    if m.commit.isSome then s.refuse r .busy "COMMIT_PEND"
    else if m.staged = [] ∧ m.held = [] ∧ m.bundle.isNone then s.refuse r .precondition "EMPTY"
    else match m.staged.find? fun x => decide (fieldCls x.1 = some .k) && s.ownerUp x.1 (some when_) with
      | some x => s.refuse r .runLocked (kName x.1) x.1
      | none =>
        if s.sys.bridgeLost ∧ !s.split ∧ m.usesDie1 then s.bad r .hwFault
        else match ({ s.cand m with target := some when_ }).fail with
          | some (nm, a) => s.refuse r .conflict nm a
          | none => match s.notResident d m with
            | some l => s.refuse r .precondition "NOT_RESIDENT" (l.kind * 256 + l.inst)
            | none => if s.leadOk when_ then s.acceptCommit r d when_ else s.refuse r .precondition "LEAD"

/-! ### DISCARD (R32, R309) -/

/-- Released shadows of table sets become STALE. -/
def State.releaseHolds (s : State) (l : List TableSet) : State :=
  l.foldl (fun s x => match tblOfKind x.kind with
    | some t => if s.shadow x.inst t = 3 then s.setShadow x.inst t 0 else s
    | none => s) s

/-- Abandon a load; one that has been ACCEPTED receives its final reply. -/
def State.abandonLoad (s : State) (l : Load) (st : Status) (name : String) : State :=
  let s := s.dropLoad l
  let s := match l.phase, tblOfKind l.kind with
    | .writing, some t => s.stopWrite l.inst t
    | _, _ => s
  (s.refuseIf l.ref st name).endOpIf l.ref

/-- Clear the staged image of a domain, its holds and its loads. -/
def State.clearStaged (s : State) (d : Nat) (st : Status) (name : String) : State :=
  let s := s.releaseHolds (s.dom d).held
  let s := s.modDom d fun m => { m with staged := [], held := [], bundle := none }
  (s.loads.filter fun l => decide (s.domOfDie (dieOfLoad l.kind l.inst) = d)).foldl (fun s l => s.abandonLoad l st name) s

/-- Cancel the pending commit of a domain: the frozen image is dropped and its COMMIT receives this final reply. -/
def State.cancelCommit (s : State) (d : Nat) (st : Status) (name : String) : State :=
  match (s.dom d).commit with
  | none => s
  | some c => ((s.releaseHolds c.tables).modDom d fun m => { m with commit := none }).refuse c.ref st name

/-- DISCARD. -/
def svcDiscard : Service := fun r ps s =>
  let d := getLe ps 0 1
  if !okLen ps [4] then s.bad r .badLength
  else if 1 < d ∨ (d = 1 ∧ !s.split) ∨ getLe ps 1 3 ≠ 0 then s.bad r .badAddress
  else
    let m := s.dom d
    let cancel := match m.commit with
      | some c => !c.armed
      | none => false
    let loads := s.loads.any fun l => decide (s.domOfDie (dieOfLoad l.kind l.inst) = d)
    let frozen := match m.commit with
      | some c => cancel && decide (c.tables ≠ [])
      | none => false
    let b := cancel.toNat + 2 * (decide (m.staged ≠ []) || m.bundle.isSome).toNat +
      4 * (decide (m.held ≠ []) || loads || frozen).toNat
    let s := if cancel then s.cancelCommit d .denied "DISCARDED" else s
    (s.clearStaged d .denied "DISCARDED").ok r [byteOf b]

/-! ### Effect -/

/-- A change of HIST_CFG abandons a run, but not one that ends at this boundary (R476, Table 17-5). -/
def histDrop (h : Option HistRun) : Option HistRun := h.filter fun r => decide (r.left = 0)

/-- A staged field replaces the running one. -/
def State.applyField (s : State) (a v : Nat) : State :=
  let i := instOf a
  let off := offOf a
  if fieldCls a = some .l then s.liveApply a v
  else match blkOf a with
    | 0x01 =>
      if a = DEV.FEC_MODE0 then ((s.wr a v).segBypass 0).segBypass 1
      else if a = DEV.FEC_MODE1 then ((s.wr a v).segBypass 2).segBypass 3
      else s.wr a v
    | 0x10 =>
      if off = 0x0020 then s.modRx i fun r => { r with nomTaps := v % 64 }
      else if off = 0x0061 then (s.modRx i fun r => { r with comCeil := v % 32 }).useCeil i
      else s.wr a v
    | 0x41 =>
      if 0x0200 ≤ off ∧ off ≤ 0x0217 then (s.wr a v).modBias (off - 0x0200) fun b => { b with acc := none } else s.wr a v
    | 0x60 => if off = 0x0010 then (s.wr a v).portEnable i (decide (v = 1)) else s.wr a v
    | 0x70 =>
      if 0x0060 ≤ off ∧ off ≤ 0x0067 ∧ v ≠ s.rd a then { s.wr a v with hists := modNth none s.hists (off - 0x0060) histDrop }
      else s.wr a v
    | _ => s.wr a v

/-- The management memory keeps the master copy of a recipe-supplied table that a commit has made active (R27). -/
def State.keepMgmt (s : State) (x : TableSet) : State :=
  { s with mgmt := s.mgmt.filter (fun y => decide (¬ (y.kind = x.kind ∧ y.inst = x.inst))) ++ [x] }

/-- The kind under which the management memory keeps the transmit FIR of a lane: nine taps and FIR_MAIN (R27). -/
def firKind : Nat := 0x100
/-- The master copies of the transmit FIRs whose fields a commit carries. -/
def State.keepFirs (s : State) (l : List (Nat × Nat)) : State :=
  ((List.range 8).filter fun n => l.any fun x => decide (x.1 = LTX.FIR_MAIN n) ||
      (List.range 9).any fun k => decide (x.1 = LTX.FIR_TAP n k)).foldl (fun s n =>
    s.keepMgmt ⟨firKind, n, (List.range 9).map (fun k => s.rd (LTX.FIR_TAP n k)) ++ [s.rd (LTX.FIR_MAIN n)], s.nowL n⟩) s

/-- The running tap count of a lane follows the committed one (R369). -/
def State.runTaps (s : State) (n : Nat) : State := s.wr (LRX.FFE_TAPS n) (min (s.rxL n).nomTaps (s.laneTapLimit n))

/-- The staged fields of a commit replace the running fields; a change of SPAN runs its first phase at the slew settings
in force before (R356). -/
def State.applyFields (s : State) (l : List (Nat × Nat)) : State :=
  let spans := (List.range 24).filter fun c => l.any fun x => decide (x.1 = BDAC.SPAN c ∧ x.2 ≠ s.rd (BDAC.SPAN c))
  let s := spans.foldl (fun s c => s.spanChange c (s.rd (BDAC.SLEW_STEP c)) (s.rd (BDAC.SLEW_DIV c))) s
  let old := s
  let s := l.foldl (fun s x => s.applyField x.1 x.2) s
  let s := if l.any fun x => decide (blkOf x.1 = 0x40) then s.hkRestarts old else s
  (List.range 8).foldl (fun s n =>
    if l.any (fun x => decide (x.1 = LRX.FFE_TAPS n ∨ x.1 = LRX.FFE_MAIN n)) then s.runTaps n else s) s

/-- Stamps of a table set the commit makes active. -/
def TableSet.setId (x : TableSet) : Nat := setIdOf x.kind x.words

/-- Write the master copy of a set that COMMIT has made active. -/
def State.commitMaster (s : State) (x : TableSet) (tgt : Nat) (words : List Nat) : State :=
  let die := dieOfTarget tgt
  s.writeMaster (s.servJ die) x.kind tgt words x.setId x.epoch 0x8000 (s.cfgGen (s.domOfDie die))

/-- A decoder schedule becomes active (R155 to R157): entries served keep their evaluators, entries no longer enabled
free theirs, which become spares, and new ones take the lowest-numbered free usable evaluators. -/
def State.useSchedule (s : State) (n : Nat) (words : List Nat) : State :=
  let s := (s.wr (FEC.SCHED_SET_ID n) (words.getD 0 0)).wrList (FEC.SCHED n 0) ((words.drop 1).take 16)
  let on := fun (s : State) (p : Nat) => decide (bits (s.rd (FEC.SCHED n p)) 7 7 = 1)
  let served := (List.range 34).filter (s.evalServes n)
  let gone := (s.rxL n).removed.filter (on s)
  let s := s.modRx n fun r => { r with removed := gone }
  let free := fun (s : State) => (List.range 34).find? fun e => s.bit (FEC.EVAL_HEALTH n) e && !s.evalServes n e
  let take := fun (s : State) (k : Nat) =>
    if s.rd (FEC.EVAL_MAP n k) ≠ 0x3F then s
    else match free s with
      | some e => s.wr (FEC.EVAL_MAP n k) e
      | none => s
  let s := (List.range 16).foldl (fun s p =>
    if on s p ∧ !gone.contains p then s else (s.wr (FEC.EVAL_MAP n p) 0x3F).wr (FEC.EVAL_MAP n (16 + p)) 0x3F) s
  let s := (List.range 16).foldl (fun s p => if on s p ∧ !gone.contains p then take (take s p) (16 + p) else s) s
  let s := ((s.idleEvals n).filter served.contains).foldl (fun s e => s.evalSpare n e) s
  let enabled := ((List.range 16).filter (on s)).length
  let s := s.wr (FEC.SCHED_SERVED n) (enabled - gone.length)
  let s := (s.wrBit (FEC.FLAGS n) 4 (decide (gone ≠ []))).modRx n fun r => { r with degDec := decide (gone ≠ []) }
  s.rxDegraded n

/-- A Joiner schedule becomes active (R207): changed slots run as for the first time (R210), and no revert outlasts it
(R213). -/
def State.useJoinerSched (s : State) (d : Nat) (words : List Nat) : State :=
  let w := wordsOf words
  let new := (List.range 32).map fun k => w.getD (1 + k) 0
  let book := fun (j : Joiner) (k : Nat) =>
    if s.rd (JNR.SCHED d k) = new.getD k 0 then { j.slots.getD k SlotBook.reset with reverted := false, revertDue := false }
    else SlotBook.reset
  let s := s.modJn d fun j => { j with slots := (List.range 32).map (book j) }
  (s.wr (JNR.SCHED_SET_ID d) (w.getD 0 0)).wrList (JNR.SCHED d 0) new

/-- A table set the commit carries becomes active (R129, R31). -/
def State.applyTable (s : State) (x : TableSet) : State :=
  let n := x.inst
  match x.kind with
  | 0x01 => (((s.swapBanks n .ctx).openWindow n .ctx 64).masterGood n .ctx).noteSwap 1 n
  | 0x02 => (((s.swapBanks n .shp).openWindow n .shp 64).masterGood n .shp).noteSwap 2 n
  | 0x03 =>
    let taps := ((x.words.drop 2).take 33).map (· % 1024)
    ((s.useFfe n (x.words.getD 1 0) (x.words.getD 0 0) taps).noteSwap 3 n).commitMaster x n (taps ++ [x.words.getD 1 0])
  | 0x07 => (((s.useLlr n x.words).noteSwap 7 n).commitMaster x n x.words).keepMgmt x
  | 0x08 => ((s.useHeq n x.words).noteSwap 8 (16 + n)).commitMaster x (16 + n) x.words
  | 0x09 => (s.modRx n fun r => { r with gain := wordsOf x.words }).keepMgmt x
  | 0x0A => (s.useSchedule n x.words).keepMgmt x
  | _ => (s.useJoinerSched n x.words).keepMgmt x

/-- A bundle becomes active (R289, R224, R225): PARAMS, grants, and the user program with its entry addresses; its schedule
set for every Joiner for which the commit carries none of its own (R211). -/
def State.useBundle (s : State) (b : Bundle) (tables : List TableSet) (dies : List Nat) : State :=
  let s := (s.wr DEV.BUNDLE_SEQ b.seq).modSys fun y => { y with bundle := b }
  let s := (s.wr DEV.QUAL_WIN b.qualWin).wr DEV.STALE_TICKS b.staleTicks
  let prog := match b.sections.find? fun x => decide (x.typ = 0x0E) with
    | some x => x.words.drop 128
    | none => []
  let s := match b.sched with
    | some w => (dies.filter fun d => !tables.any fun x => decide (x.kind = 0x0D ∧ x.inst = d)).foldl (fun s d =>
        (s.useJoinerSched d w).keepMgmt ⟨0x0D, d, w, s.now d⟩) s
    | none => s
  [0, 1].foldl (fun s d =>
    let s := s.wrList (JNR.USER_GRANT d 0) ((List.range 24).map b.grant)
    s.modJn d fun j => { j with
      pm := dmPutHalves (j.pm.filter fun x => decide (x.1 < 0x30000)) 0x30000 prog
      entry := (List.range 64).foldl (fun m e => spSet 0 m (0xC0 + e) (b.userEntry (0xC0 + e))) j.entry }) s

/-- CFG_GEN of a domain rises by one (R31, R329). -/
def State.genUp (s : State) (d : Nat) : State := s.inc (if s.split ∧ d = 1 then DEV.CFG_GEN1 else DEV.CFG_GEN0)

/-- An AVS request (R395) for a target in mV; a target the fused speed table sets is a free value of 600 to 780 mV (log 2). -/
def State.avsAsk (s : State) (target : Option Nat) : State :=
  match target with
  | some v => (s.wr PWR.VCORE_TARGET v).inc PWR.AVS_REQ_CNT
  | none => (s.draw.2.wr PWR.VCORE_TARGET (600 + s.draw.1.toNat % 181)).inc PWR.AVS_REQ_CNT

/-- Does a die run L400, the faster of the rate modes (R395)? -/
def State.fast (s : State) : Bool := decide (s.rd DEV.RATE_MODE0 = 0 ∨ s.rd DEV.RATE_MODE1 = 0)

/-- A commit takes effect at its boundary: fields, tables and bundle in one step (R31, R35). A change of the faster rate
mode has brought an AVS request with it (R395, R396). -/
def State.commitNow (s : State) (d : Nat) (c : PendingCommit) : State :=
  let s := (s.pubs.filter fun p => c.touches p.tgt && p.live).foldl (fun s p => s.displace p.kind p.tgt) s
  let s := s.modDom d fun m => { m with
    commit := none, last := some (s.now d, c.tables.map fun x => (x.kind, x.inst)) }
  let s := match c.bundle with
    | some b => s.useBundle b c.tables (s.domDies d)
    | none => s
  let fast := s.fast
  let s := c.tables.foldl State.applyTable ((s.applyFields c.frozen).keepFirs c.frozen)
  let s := if s.fast = fast then s else s.avsAsk none
  let s := s.genUp d
  s.ok c.ref (le 8 s.tickno ++ le 4 (s.cfgGen d) ++ le 2 c.frozen.length ++ [byteOf c.tables.length, 0])

/-- COMMIT_ARM (R31, R33): at target − 1 the commit arms, or in non-split mode without die 1's readiness is cancelled. -/
def execCommitArm (d : Die) (ready1 : Bool) (s : State) : Result := finish s <|
  match (s.dom d.val).commit with
  | none => .next s
  | some c =>
    if c.armed ∨ !reached (addTicks s.tickno 1) c.target then .next s
    else if !s.split ∧ (!ready1 ∨ s.sys.bridgeLost) then .next (s.cancelCommit d.val .hwFault "BRIDGE")
    else .next (s.modDom d.val fun m => { m with commit := some { c with armed := true } })

/-- COMMIT_SWAP (R31): at the target boundary the armed commit takes effect. -/
def execCommitSwap (d : Die) (s : State) : Result := finish s <|
  match (s.dom d.val).commit with
  | none => .next s
  | some c =>
    if s.commitDue d.val then .next (s.commitNow d.val c) else .next s

end Sys2Proof.Machine
end

