-- ==== Sys2Proof/Machine/Images.lean ====
section
/-!
DEFINITION. Flash, images, recipe bundles and firmware activation (R224, R289, R313, R314, R413 to R420, R422, R423,
R430, R458, R459).
-/

namespace Sys2Proof.Machine

def State.modImg (s : State) (f : Images → Images) : State := s.modSys fun y => { y with images := f y.images }

/-! ### Flash (Table 15-5) -/

/-- Image types of Table 15-6. -/
def imgFw : Nat := 0
def imgCfg : Nat := 1
def imgBundle : Nat := 2
def imgHealth : Nat := 3

/-- Offset and size of a copy area; copy 0 is A, 1 is B. -/
def copyArea (ty copy : Nat) : Nat × Nat :=
  match ty with
  | 0 => (0x100000 + 0x100000 * copy, 0x100000)
  | 1 => (0x10000 + 0x10000 * copy, 0x10000)
  | 2 => (0x300000 + 0x80000 * copy, 0x80000)
  | _ => (0x1000 * copy, 0x1000)

/-- Bytes of flash. -/
def State.flashAt (s : State) (a n : Nat) : List Byte :=
  (List.range n).map fun i => byteOf (spGet 0xFF s.sys.images.flash (a + i))
/-- Program bytes: a programmed bit stays 0 until the sector is erased. -/
def State.flashPut (s : State) (a : Nat) (bs : List Byte) : State :=
  s.modImg fun m => { m with flash := (List.range bs.length).foldl (fun f i =>
    spSet 0xFF f (a + i) (spGet 0xFF f (a + i) &&& (bs.getD i 0).toNat)) m.flash }
/-- Erase a copy area. -/
def State.flashErase (s : State) (ty copy : Nat) : State :=
  let c := copyArea ty copy
  s.modImg fun m => { m with flash := m.flash.filter fun x => decide (x.1 < c.1 ∨ c.1 + c.2 ≤ x.1) }

/-! ### Image headers and signatures (R414, R416) -/

/-- Body length of an image. -/
def bodyLen (img : List Byte) : Nat := getLe img 8 4
/-- Firmware and bundles are signed. -/
def signedTy (ty : Nat) : Bool := decide (ty = 0 ∨ ty = 2)
/-- Bytes of an image: header, body, and key and signature of a signed one. -/
def imgLen (ty : Nat) (img : List Byte) : Nat := 64 + bodyLen img + if signedTy ty then 192 else 0
/-- Body of an image. -/
def imgBody (img : List Byte) : List Byte := (img.drop 64).take (bodyLen img)

/-- The header checks of R416. -/
def State.headerOk (s : State) (ty : Nat) (img : List Byte) : Bool :=
  decide (getLe img 60 4 = (crc32 (img.take 60)).toNat ∧ getLe img 0 4 = 0x49475855 ∧ getLe img 4 1 = ty ∧
    getLe img 5 1 = 1 ∧ bodyLen img % 4 = 0 ∧ getLe img 16 1 ≤ s.rd DEV.STEPPING)

/-- Hash of a key slot: slot 0 is fused by Umonlux. -/
def State.keyHash (s : State) (slot : Nat) : BitVec 384 :=
  if slot = 0 then Config.rootKey else s.sys.images.keys.getD (slot - 1) 0
/-- Key slot and signature of a signed image (R416, R430). -/
def State.sigOk (s : State) (ty : Nat) (img : List Byte) : Bool :=
  let slot := getLe img 6 1
  let key := (img.drop (64 + bodyLen img)).take 96
  let sig := (img.drop (160 + bodyLen img)).take 96
  !signedTy ty ||
    (decide (slot < 4) && s.bit RST.KEY_STATE slot && !s.bit RST.KEY_STATE (4 + slot) &&
      decide (Config.sha384 key = s.keyHash slot) && Config.ecdsaOk key (img.take (160 + bodyLen img)) sig &&
      decide (ty ≠ 0 ∨ slot = 0))
/-- SVN at or above the fused floor (firmware). -/
def State.svnOk (s : State) (ty : Nat) (img : List Byte) : Bool :=
  decide (ty ≠ 0 ∨ s.rd RST.SVN_FLOOR ≤ getLe img 7 1)

/-! ### Bundles and configurations (Table 15-7) -/

/-- 16-bit words of bytes. -/
def halfWords (bs : List Byte) : List Nat := (List.range (bs.length / 2)).map fun i => getLe bs (2 * i) 2
/-- The section directory of a bundle body: type, mask, offset, length, CRC. -/
def bundleDir (body : List Byte) : List (Nat × Nat × Nat × Nat × Nat) :=
  (List.range (getLe body 0 2)).map fun i =>
    let e := 4 + 16 * i
    (getLe body e 1, getLe body (e + 2) 2, getLe body (e + 4) 4, getLe body (e + 8) 4, getLe body (e + 12) 4)
/-- Count and section CRCs of a bundle (R418). -/
def bundleOk (body : List Byte) : Bool :=
  decide (1 ≤ getLe body 0 2 ∧ getLe body 0 2 ≤ 64) &&
  (bundleDir body).all fun x => decide (getLe (le 4 x.2.2.2.2) 0 4 = (crc32 ((body.drop x.2.2.1).take x.2.2.2.1)).toNat)
/-- A bundle from its body. -/
def bundleOf (seq : Nat) (body : List Byte) : Bundle :=
  ⟨seq, (bundleDir body).map fun x => ⟨x.1, x.2.1, halfWords ((body.drop x.2.2.1).take x.2.2.2.1)⟩⟩

/-- What keeps an image from being valid: CRC or header, signature, security version (R417). -/
def State.imageFault (s : State) (ty : Nat) (img : List Byte) : Option String :=
  if !s.headerOk ty img ∨ img.length < imgLen ty img ∨ (ty = 2 ∧ !bundleOk (imgBody img)) then some "IMAGE_CRC"
  else if !s.sigOk ty img then some "SIGNATURE"
  else if !s.svnOk ty img then some "SEQUENCE" else none

/-! ### Copies (R415, R416) -/

/-- An image and its SEQ, with the trailer CRC checked, from bytes that end in the trailer of Table 15-8. -/
def trailerOk (img trailer : List Byte) : Bool :=
  let seq := getLe trailer 0 4
  decide (1 ≤ seq ∧ seq < 0xFFFFFFFF ∧ getLe trailer 8 4 = 0xFFFFFFFF) &&
    decide (getLe trailer 4 4 = (crc32 (img ++ le 4 seq)).toNat)

/-- The image of a copy, as long as its header says. -/
def State.copyImg (s : State) (ty copy : Nat) : List Byte :=
  let c := copyArea ty copy
  let n := imgLen ty (s.flashAt c.1 64)
  if n ≤ c.2 - 16 then s.flashAt c.1 n else []
/-- The trailer of a copy. -/
def State.copyTrailer (s : State) (ty copy : Nat) : List Byte :=
  let c := copyArea ty copy
  s.flashAt (c.1 + c.2 - 16) 16
/-- SEQ of a valid copy; none where the copy is not valid. -/
def State.copySeq (s : State) (ty copy : Nat) : Option Nat :=
  let img := s.copyImg ty copy
  if (s.imageFault ty img).isNone && trailerOk img (s.copyTrailer ty copy) then some (getLe (s.copyTrailer ty copy) 0 4)
  else none
/-- The newest valid copy of a type, with its SEQ. -/
def State.newest (s : State) (ty : Nat) : Option (Nat × Nat) :=
  match s.copySeq ty 0, s.copySeq ty 1 with
  | some a, some b => if a < b then some (1, b) else some (0, a)
  | some a, none => some (0, a)
  | none, some b => some (1, b)
  | none, none => none
/-- RST fields that report the SEQ of each copy (R434). -/
def State.showSeqs (s : State) (ty : Nat) : State :=
  let a := match ty with
    | 0 => RST.FW_SEQ_A
    | 1 => RST.CFG_SEQ_A
    | 2 => RST.BND_SEQ_A
    | _ => RST.HLTH_SEQ_A
  (s.wr a ((s.copySeq ty 0).getD 0)).wr (a + 1) ((s.copySeq ty 1).getD 0)

/-- Write an image into the older copy of its type with a trailer; its SEQ. -/
def State.trailerPut (s : State) (ty copy seq : Nat) : State :=
  let c := copyArea ty copy
  let img := s.copyImg ty copy
  (s.flashPut (c.1 + c.2 - 16) (le 4 seq ++ le 4 (crc32 (img ++ le 4 seq)).toNat)).showSeqs ty

/-! ### Images over the Tenon link (R458, R459) -/

/-- Is this a rafter that boots over the link? -/
def State.noFlash (s : State) : Bool := decide (s.rd DEV.ROLE = 2 ∧ s.rd DEV.BOOT_SRC = 1)
/-- The pieces of an image received in a stream. -/
def State.pieces (s : State) (ty : Nat) : List (Nat × Nat) := ((s.sys.ten.pieces.find? fun x => decide (x.1 = ty)).map (·.2)).getD []
/-- The image a stream has brought, and its SEQ, where it verifies. -/
def State.streamImg (s : State) (ty : Nat) : Option (List Byte × Nat) :=
  let m := s.pieces ty
  let n := min (imgLen ty ((List.range 64).map fun i => byteOf (spGet 0xFF m i))) (copyArea ty 0).2
  let img := (List.range n).map fun i => byteOf (spGet 0xFF m i)
  let tr := (List.range 16).map fun i => byteOf (spGet 0xFF m (n + i))
  if (s.imageFault ty img).isNone && trailerOk img tr then some (img, getLe tr 0 4) else none
/-- Ask the ridge for images: bit 0 firmware, 1 configuration, 2 bundle. -/
def State.bootReq (s : State) (mask : Nat) : State :=
  (s.modTen fun t => { t with wanted := mask, pieces := [] }).sendBlock 0 (block 0xB4 [s.rd (TEN.ADDR 0), mask])

/-! ### IMAGE_WRITE (R313, R417) -/

/-- Is a long-running operation of an opcode in progress? -/
def State.opRuns (s : State) (op : Nat) : Bool := s.longOps.any fun o => decide (o.ref.op = op)

/-- IMAGE_WRITE. -/
def svcImageWrite : Service := fun r ps s =>
  let ty := getLe ps 0 1
  let seg := getLe ps 2 2
  let off := getLe ps 4 4
  let fl := getLe ps 8 1
  if ps.length < 12 then s.bad r .badLength
  else if 2 < ty ∨ getLe ps 1 1 ≠ 0 ∨ 3 < fl ∨ getLe ps 9 3 ≠ 0 then s.bad r .badAddress
  else if s.noFlash then s.refuse r .precondition "NO_FLASH"
  else if s.opRuns 0x70 ∨ s.opRuns 0x71 then s.refuse r .busy "LONG_OP"
  else
    let copy := match s.newest ty with
      | some (c, _) => 1 - c
      | none => 0
    let w : ImgWrite := match s.sys.images.write with
      | some w => if seg = 0 ∨ w.image ≠ ty then ⟨ty, copy, 0, 0, none⟩ else w
      | none => ⟨ty, copy, 0, 0, none⟩
    if w.next ≠ seg ∨ w.offset ≠ off then
      (s.modImg fun m => { m with write := none }).refuse r .precondition "SEG_ORDER"
    else
      let data := ps.drop 12
      if (copyArea ty w.copy).2 - 16 < off + data.length then
        (s.modImg fun m => { m with write := none }).bad r .badLength
      else
        let g : ImgSeg := ⟨r, fl.testBit 0, fl.testBit 1, off, data⟩
        let w := { w with next := seg + 1, offset := off + data.length, seg := some g }
        ((s.modImg fun m => { m with write := some w }).accepted r []).startOp r ty

/-- A refused copy is left with its trailer erased (R417). -/
def State.trailerErase (s : State) (ty copy : Nat) : State :=
  let c := copyArea ty copy
  (s.modImg fun m => { m with flash := m.flash.filter fun x => decide (x.1 < c.1 + c.2 - 16 ∨ c.1 + c.2 ≤ x.1) }).showSeqs ty

/-- The checks at LAST, the trailer, and the read-back of the whole copy (R417). -/
def State.imageLast (s : State) (w : ImgWrite) (r : ReqRef) : State :=
  let seq := match s.newest w.image with
    | some (_, q) => q + 1
    | none => 1
  match s.imageFault w.image (s.copyImg w.image w.copy) with
  | some nm => (s.trailerErase w.image w.copy).refuse r .denied nm
  | none =>
    let t := s.trailerPut w.image w.copy seq
    if seq = 0xFFFFFFFF then (s.trailerErase w.image w.copy).refuse r .denied "SEQUENCE"
    else if t.copySeq w.image w.copy = some seq then t.ok r ([byteOf w.copy, 0, 0, 0] ++ le 4 seq)
    else (s.trailerErase w.image w.copy).refuse r .denied "IMAGE_CRC"

/-- IMAGE_WRITE_DONE (R417, R503): the segment is erased, programmed and read back; a slow flash gives TIMEOUT, one that
fails HW_FAULT. -/
def execImageWriteDone (late fault : Bool) (s : State) : Result := finish s <|
  match s.sys.images.write with
  | none => .next s
  | some w =>
    match w.seg with
    | none => .next s
    | some g =>
      let s := (if g.first then s.flashErase w.image w.copy else s).flashPut ((copyArea w.image w.copy).1 + g.offset) g.data
      let s := (s.modImg fun m => { m with write := if late || fault || g.last then none else some { w with seg := none } }).endOp
        g.ref.rid
      .next (if late then s.refuse g.ref .timeout "FLASH"
        else if fault then s.refuse g.ref .hwFault "FLASH"
        else if g.last then s.imageLast w g.ref
        else (s.showSeqs w.image).ok g.ref [])

/-! ### RECIPE_LOAD (R313, R459) -/

/-- RECIPE_LOAD. -/
def svcRecipeLoad : Service := fun r ps s =>
  let src := getLe ps 0 1
  let d := getLe ps 1 1
  let seg := getLe ps 2 1
  let off := getLe ps 4 4
  if ps.length < 8 ∨ (src ≠ 3 ∧ ps.length ≠ 8) then s.bad r .badLength
  else if 3 < src ∨ 1 < d ∨ (d = 1 ∧ !s.split) ∨ 1 < getLe ps 3 1 then s.bad r .badAddress
  else if s.noFlash ∧ (src = 1 ∨ src = 2) then s.refuse r .precondition "NO_FLASH"
  else if s.opRuns 0x52 then s.refuse r .busy "LONG_OP"
  else
    let new : RecipeLoad := ⟨src, d, 0, [], none⟩
    let w := match s.sys.images.recipe with
      | some w => if seg = 0 then new else w
      | none => new
    if w.next ≠ seg ∨ w.bytes.length ≠ off ∨ w.source ≠ src ∨ w.domain ≠ d then
      (s.modImg fun m => { m with recipe := none }).refuse r .precondition "SEG_ORDER"
    else
      let w := { w with next := seg + 1, bytes := w.bytes ++ ps.drop 8 }
      if getLe ps 3 1 = 0 then (s.modImg fun m => { m with recipe := some w }).ok r []
      else
        let s := ((s.modImg fun m => { m with recipe := some { w with ref := some r } }).accepted r []).startOp r 0
        if s.noFlash ∧ src = 0 then s.bootReq 4 else s

/-- The bundle a RECIPE_LOAD names: its image, and its SEQ; packets carry no trailer, so the sequence is a free value
(log 2). -/
def State.recipeImg (s : State) (w : RecipeLoad) : List Byte × Nat :=
  let copy := fun (c : Nat) => (s.copyImg 2 c, (s.copySeq 2 c).getD 0)
  match w.source with
  | 0 =>
    if s.noFlash then (s.streamImg 2).getD ([], 0)
    else (match s.newest 2 with
      | some (c, _) => copy c
      | none => ([], 0))
  | 1 => copy 0
  | 2 => copy 1
  | _ => (w.bytes, s.draw.1.toNat % 2 ^ 32)

/-- RECIPE_BUNDLE_VERIFIED (R313): the bundle is staged for the next commit of its domain, or refused; a flash that fails
gives HW_FAULT (R503). -/
def execRecipeBundleVerified (fault : Bool) (s : State) : Result := finish s <|
  match s.sys.images.recipe with
  | none => .next s
  | some w =>
    match w.ref with
    | none => .next s
    | some r =>
      let img := s.recipeImg w
      let s := (s.modImg fun m => { m with recipe := none }).endOp r.rid
      let s := if w.source = 3 then s.draw.2 else s
      .next (if fault then s.refuse r .hwFault "FLASH"
        else match s.imageFault 2 img.1 with
          | some nm => s.refuse r .denied nm
          | none =>
            if w.source ≠ 3 ∧ img.2 = 0 then s.refuse r .denied "IMAGE_CRC"
            else
              let b := bundleOf img.2 (imgBody img.1)
              (s.modDom w.domain fun m => { m with bundle := some b }).ok r (le 4 b.seq ++ [byteOf b.sections.length, 1]))

/-! ### Firmware (R224, R422, R423) -/

/-- The running firmware is this image: version, security version, Joiner factory program and its entry addresses, which
the manual leaves to the image (log 2). -/
def State.useFirmware (s : State) (img : List Byte) (copy seq : Nat) : State :=
  let body := imgBody img
  let code := (body.drop (16 + getLe body 0 4)).take (getLe body 8 4)
  let s := ((s.wr RST.FW_COPY copy).wr DEV.FW_SEQ seq).modImg fun m => { m with
    version := getLe img 12 4, svn := getLe img 7 1, lockSvn := (getLe img 17 1).testBit 0 }
  let base := s.free
  let s := [0, 1].foldl (fun s d => s.modJn d fun j => { j with
    pm := (List.range (code.length / 2)).foldl (fun m i => dmPut m (2 * i) 2 (getLe code (2 * i) 2))
      (j.pm.filter fun x => decide (0x30000 ≤ x.1))
    entry := (List.range 192).foldl (fun m e => spSet 0 m e (8 * ((Config.freeValue (base + e)).toNat % 0x6000))) j.entry }) s
  { s with free := base + 192 }

/-- The controller serves from now on; with TESTMODE high it never does (R497). -/
def State.serveNow (s : State) : State := if s.sys.pins.testMode then s else s.modSys fun y => { y with mcState := 2 }

/-- The Joiners that serve. -/
def State.serving (s : State) : List Nat := [s.servJ 0, s.servJ 1].eraseDups

/-- IMAGE_ACTIVATE (R314, R422, R423): mode 0 starts a hitless activation, mode 1 marks the image for the next start,
which in recovery is at once (R420). -/
def svcImageActivate : Service := fun r ps s =>
  let mode := getLe ps 1 1
  if !okLen ps [4] then s.bad r .badLength
  else if getLe ps 0 1 ≠ 0 ∨ 1 < mode ∨ getLe ps 2 2 ≠ 0 then s.bad r .badAddress
  else if mode = 1 then
    let s := (s.wrBit RST.FLAGS 6 true).done r (le 4 (s.rd DEV.FW_SEQ) ++ le 4 0)
    if s.sys.recovery then s.modSys fun y => { y with power := { y.power with restart := some false } } else s
  else if s.doms.any fun d => d.commit.isSome then s.refuse r .busy "COMMIT_PEND"
  else if s.longOps ≠ [] then s.refuse r .busy "LONG_OP"
  else if s.noFlash then
    (((s.modImg fun m => { m with act := some ⟨r, 3, s.rd RST.FW_COPY, none⟩ }).accepted r []).startOp r 0).bootReq 1
  else match s.newest 0 with
    | some (c, q) =>
      if s.rd DEV.FW_SEQ < q then
        ((s.modImg fun m => { m with act := some ⟨r, c, s.rd RST.FW_COPY, none⟩ }).accepted r []).startOp r 0
      else s.refuse r .precondition "NO_NEWER"
    | none => s.refuse r .precondition "NO_NEWER"

/-- The image an activation starts, with its copy code of RST.FW_COPY and SEQ. -/
def State.actImg (s : State) (a : Activation) : Option (List Byte × Nat × Nat) :=
  if a.copy = 3 then (s.streamImg 0).map fun x => (x.1, 0, x.2)
  else (s.copySeq 0 a.copy).map fun q => (s.copyImg 0 a.copy, a.copy + 1, q)

/-- An activation ends without its new firmware: the old one goes on. -/
def State.actFails (s : State) (a : Activation) (st : Status) (name : String) : State :=
  ((s.modImg fun m => { m with act := none }).refuse a.ref st name).endOp a.ref.rid

/-- ACTIVATION_PAUSE (R422, step 3): the copy has verified, and at boundary Q intake pauses and the serving Joiners
stop; a copy that does not verify is refused, and so is the activation while a commit is pending (Table 1-7, log 159). -/
def execActivationPause (s : State) : Result := finish s <|
  match s.sys.images.act with
  | none => .next s
  | some a =>
    if a.q.isSome then .next s
    else match s.actImg a with
      | none => .next (s.actFails a .denied (if a.copy = 3 then ((s.imageFault 0 []).getD "IMAGE_CRC")
          else (s.imageFault 0 (s.copyImg 0 a.copy)).getD "IMAGE_CRC"))
      | some x =>
        if x.2.2 ≤ s.rd DEV.FW_SEQ then .next (s.actFails a .precondition "NO_NEWER")
        else if s.doms.any fun d => d.commit.isSome then .next (s.actFails a .busy "COMMIT_PEND")
        else
          let s := (s.modImg fun m => { m with act := some { a with q := some s.tickno } }).modSys fun y => { y with mcState := 4 }
          .next (s.serving.foldl (fun s d =>
            ((s.modJn d fun j => j.cut).wr (JNR.STATE d) 3).wrBit (JNR.FLAGS d) 4 true) s)

/-- Firmware serves again after an activation: the Joiners resume at a boundary with their data memory intact. -/
def State.resumeAll (s : State) : State :=
  let s := s.serveNow
  s.serving.foldl (fun s d =>
    (if s.rd (JNR.STATE d) = 3 then s.joinerResume d false else s).wrBit (JNR.FLAGS d) 4 false) s

end Sys2Proof.Machine
end

