-- ==== Sys2Proof/Machine/LaneUnit.lean ====
section
/-!
DEFINITION. Lanes going up and down at their boundary, and unit commits (R34, R55, R56, R79, R99, R110, R119, R137 to
R139, R157, R196, R310).
-/

namespace Sys2Proof.Machine

/-! ### LANE_UP and LANE_DOWN (R310) -/

/-- Line lanes on which a request has an effect: up is a no-op on an up lane that is not in HOLD, down on a lane that is
down. -/
def State.lineActs (s : State) (up : Bool) (mask : Nat) : List Nat :=
  (List.range 8).filter fun n => mask.testBit n &&
    (if up then !s.lineUp n || decide (s.rd (LRX.STATE n) = 4) else s.lineUp n)
/-- Host lanes on which a request has an effect. -/
def State.hostActs (s : State) (up : Bool) (mask : Nat) : List Nat :=
  (List.range 16).filter fun k => mask.testBit k &&
    (if up then !s.hostUp k || decide (s.rd (HRX.STATE k) = 5) else s.hostUp k)
/-- The mask of a list of numbers. -/
def maskOf (l : List Nat) : Nat := (l.map fun i => 2 ^ i).sum

/-- Has a cluster of a region started in the present tick (R490)? -/
def State.regionStarted (s : State) (r : Nat) : Bool :=
  [2 * r, 2 * r + 1].any (fun n => decide ((s.rxL n).step ≠ 0 ∧ (s.rxL n).bringT = s.nowL n)) ||
  (List.range 4).any fun j => decide ((s.hostL (4 * r + j)).step ≠ 0 ∧ (s.hostL (4 * r + j)).bringT = s.nowH (4 * r + j))
/-- Bring up the lanes of a list, except that a region starts one cluster per tick; the second component lists those
left for later ticks (R490, log 162). -/
def State.startLanes (s : State) (l : List Nat) (up : State → Nat → Bool) (region : Nat → Nat)
    (start : State → Nat → State) : State × List Nat :=
  l.foldl (fun x i => if !up x.1 i && x.1.regionStarted (region i) then (x.1, x.2 ++ [i]) else (start x.1 i, x.2)) (s, [])
/-- A LANE_UP takes effect on these lanes. -/
def State.lanesUp (s : State) (ls hs : List Nat) : State :=
  let a := s.startLanes ls State.lineUp regionOfLine State.lineBringUp
  let b := a.1.startLanes hs State.hostUp regionOfHost State.hostBringUp
  if a.2 = [] ∧ b.2 = [] then b.1
  else { b.1 with lanes := b.1.lanes ++ [LaneReq.mk true (maskOf a.2) (maskOf b.2) (addTicks s.tickno 1) none] }

/-- A request takes effect; its final reply names the boundary and the lanes acted. -/
def State.laneEffect (s : State) (q : LaneReq) : State :=
  let ls := s.lineActs q.up q.line
  let hs := s.hostActs q.up q.host
  let s := if q.up then s.lanesUp ls hs else hs.foldl State.hostGoDown (ls.foldl (fun s n => s.lineGoDown n) s)
  s.okIf q.ref (le 8 s.tickno ++ le 2 (maskOf ls) ++ le 2 (maskOf hs))

/-- Is a request due: its boundary, or for a die of two-tick boundaries the first of its own at or after it (R12)? -/
def State.laneDue (s : State) (q : LaneReq) : Bool :=
  let d := if q.line % 16 = 0 ∧ q.host % 256 = 0 then 1 else 0
  s.dueAt d q.target

/-- The pending requests of one kind that are due take effect. -/
def State.laneEffects (s : State) (up : Bool) : State :=
  let due := s.lanes.filter fun q => decide (q.up = up) && s.laneDue q
  let s := { s with lanes := s.lanes.filter fun q => !(decide (q.up = up) && s.laneDue q) }
  due.foldl State.laneEffect s


/-! ### Spares (R55, R137, R157) -/

/-- Have the spare slices completed a shadow cycle: 32 ticks with two spares, 64 with one (R55)? -/
def State.sliceCycled (s : State) (n : Nat) : Bool :=
  let len := if (s.spareSlices n).length = 1 then 64 else 32
  decide (len ≤ s.sinceL n (s.rxL n).sliceCycle) && decide (s.rd (LRX.STATE n) ≠ 0)
/-- Ready spare evaluators (R157). -/
def State.spareEvals (s : State) (n : Nat) : List Nat :=
  (List.range 34).filter fun e =>
    s.bit (FEC.EVAL_HEALTH n) e && s.bit (FEC.EVAL_READY n) e && !s.evalServes n e

/-- Is a unit in service? -/
def State.inService (s : State) (k : UnitKind) (n i : Nat) : Bool :=
  match k with
  | .slice => s.sliceServes n i
  | .ctxReplica => s.replServes n .ctx i
  | .shpReplica => s.replServes n .shp i
  | .evaluator => s.evalServes n i
  | .subDac => true

/-- Ready spares for a unit. -/
def State.sparesFor (s : State) (k : UnitKind) (n : Nat) : List Nat :=
  match k with
  | .slice => if s.sliceCycled n then s.spareSlices n else []
  | .ctxReplica => s.readySpares n .ctx
  | .shpReplica => s.readySpares n .shp
  | .evaluator => s.spareEvals n
  | .subDac => []

/-- Why a retirement is refused now, with `claimed` spares taken by others, of which `cuts` take schedule entries away;
none where it may go ahead. -/
def State.retireRefused (s : State) (k : UnitKind) (n i : Nat) (claimed : List Nat) (cuts : Nat := 0) : Option String :=
  if k = .subDac then some "NO_SPARE_DAC"
  else if !s.inService k n i then none
  else
    let free := (s.sparesFor k n).filter fun x => !claimed.contains x
    if free ≠ [] then none
    else match k with
      | .slice => if ((s.spareSlices n).filter fun x => !claimed.contains x) = [] then some "NO_SPARE" else some "SHADOW_CYCLE"
      | .evaluator => if s.rd (FEC.SCHED_SERVED n) ≤ 8 + cuts then some "MIN_SCHEDULE" else none
      | _ => some "NO_SPARE"

/-- What a refused retirement leaves (R56, R138). -/
def State.refusedRetire (s : State) (k : UnitKind) (n i : Nat) (name : String) : State :=
  let want := fun (s : State) (t : Tbl) =>
    (s.modTbl n t fun m => { m with wanted := i :: m.wanted.filter fun x => decide (x ≠ i) }).spareOut n t
  if name ≠ "NO_SPARE" then s
  else match k with
    | .slice =>
      let s := (s.wrBit (LRX.FLAGS n) 5 true).modRx n fun r => { r with degSpare := true }
      (s.rxDegraded n).lineLog n 0x1009 0 true
    | .ctxReplica => want s .ctx
    | .shpReplica => want s .shp
    | _ => s

/-! ### Arming and effect (R137) -/

/-- CTX-1 and CTX-2 of a replica's retirement (R143, Table 4-13): the sets left active declare the die's rate mode, the
maps name distinct replicas, and the one newly mapped is healthy and ready. -/
def State.ctxRules (s : State) (n : Nat) (t : Tbl) (sp : Option Nat) : Option String :=
  if !((s.tbl n .ctx).active.rate.all fun r => decide (r = s.rate (dieOfLine n))) then some "CTX-1"
  else if (s.tbl n t).powered && !(s.mapDistinct n t && sp.all fun j =>
      s.replUsable n t j && s.replReady n t j && !s.replServes n t j) then some "CTX-2"
  else none

/-- FEC-1 and FEC-2 of an evaluator's retirement (R175, Table 5-9), with `out` evaluators and `cuts` entries less than
now. -/
def State.fecRules (s : State) (n out cuts : Nat) : Option String :=
  let on := fun (w : Nat) => decide (bits w 7 7 = 1)
  let sched := s.rdList (FEC.SCHED n 0) 16
  let e := (sched.filter on).length
  let masks := (sched.filter on).map fun w => bits w 5 0
  let usable := ((List.range 34).filter fun i => s.bit (FEC.EVAL_HEALTH n) i).length
  if ¬ (sched.getD 0 0 = 128 ∧ 8 ≤ e ∧ (sched.take e).all on ∧ masks.eraseDups.length = e) then some "FEC-1"
  else if 2 * (e - (s.rxL n).removed.length - cuts) > usable - out then some "FEC-2"
  else none

/-- The agreement rules a unit commit checks for one retirement (R143, R175). -/
def State.unitRules (s : State) (x : Retirement) (out cuts : Nat) : Option String :=
  match x.kind with
  | .ctxReplica => s.ctxRules x.lane .ctx x.spare
  | .shpReplica => s.ctxRules x.lane .shp x.spare
  | .evaluator => s.fecRules x.lane out cuts
  | _ => none

/-- Retirements of the same kind and lane. -/
def Retirement.alike (x y : Retirement) : Bool := decide (y.kind = x.kind ∧ y.lane = x.lane)

/-- Choose the spare of one retirement; those before it have claimed theirs, and no unit of this unit commit is one. -/
def State.armItem (s : State) (all done : List Retirement) (x : Retirement) : Retirement :=
  let before := done.filter fun y => x.alike y && decide (y.refused = none)
  let claimed := before.filterMap (·.spare) ++ (all.filter x.alike).map (·.index)
  let cuts := (before.filter fun y => y.spare.isNone && s.inService y.kind y.lane y.index).length
  match s.retireRefused x.kind x.lane x.index claimed cuts with
  | some nm => { x with refused := some nm }
  | none =>
    let serves := s.inService x.kind x.lane x.index
    let x := if serves then { x with spare := ((s.sparesFor x.kind x.lane).filter fun z => !claimed.contains z).head? } else x
    { x with refused := s.unitRules x (before.length + 1) (cuts + (serves && x.spare.isNone).toNat) }

/-- The final reply of a retirement refused at arming or later: the rule broken, or what RETIRE_UNIT would answer. -/
def State.refuseItem (s : State) (x : Retirement) (nm : String) : State :=
  if ["CTX-1", "CTX-2", "FEC-1", "FEC-2"].contains nm then s.refuseIf x.ref .conflict nm x.index
  else (s.refuseIf x.ref .precondition nm x.index).refusedRetire x.kind x.lane x.index nm

/-- UNIT_COMMIT_ARM (R137): at target − 1 each retirement gets its spare; those left without one are refused. -/
def execUnitCommitArm (s : State) : Result := finish s <|
  match s.unit with
  | none => .next s
  | some u =>
    if u.armed ∨ !s.mcServes ∨ !reached (addTicks s.tickno 1) u.target then .next s
    else
      let items := u.items.foldl (fun l x => l ++ [s.armItem u.items l x]) []
      let go := items.filter fun x => decide (x.refused = none)
      let s := { s with unit := some { u with armed := true, items := go } }
      .next (items.foldl (fun s x => match x.refused with
        | some nm => s.refuseItem x nm
        | none => s) s)

/-- Retire a slice (R55). -/
def State.retireSlice (s : State) (n i : Nat) (sp : Option Nat) : State :=
  let s := match sp with
    | some j => (List.range 64).foldl (fun (s : State) p =>
        if s.rd (LRX.SLICE_MAP n p) = i then s.wr (LRX.SLICE_MAP n p) j else s) s
    | none => s
  let s := ((s.wrBit66 (sliceHealth n) i false).healthChg).lineLog n 0x1007 i
  s.modRx n fun r => { r with sliceCycle := s.nowL n }

/-- Free the remap words of a replica (R137). -/
def State.freeRemaps (s : State) (n : Nat) (t : Tbl) (repl : Nat) : State :=
  let s := (List.range 8).foldl (fun s k =>
    if remapOf (s.rd (CTX.REMAP n k)) t repl then
      (s.wr (CTX.REMAP n k) 0).modTbl n t fun m => { m with newRemaps := m.newRemaps.filter fun x => decide (x.1 ≠ k) }
    else s) s
  let s := s.modTbl n t fun m => { m with spares := m.spares.filter fun x => decide (x.2.1 ≠ repl) }
  s.wrBit (CTX.FLAGS n) 4 (decide (s.remapsUsed n = 8))

/-- A table has spares again for every replica that waits: its SPARE_OUT and cause of DEGRADED end (R138). -/
def State.spareBack (s : State) (n : Nat) (t : Tbl) : State :=
  if s.toRetire n t ≠ [] then s
  else
    let s := s.wrBit (CTX.FLAGS n) t.spareOutBit false
    match t with
    | .ctx => (s.modRx n fun r => { r with degCtxSpare := false }).rxDegraded n
    | .shp => (s.modTx n fun r => { r with degShpSpare := false }).txDegraded n

/-- Retire a replica (R137): in service it gives its logical index to the spare, else it is marked unusable. -/
def State.retireReplica (s : State) (n : Nat) (t : Tbl) (i : Nat) (sp : Option Nat) : State :=
  match sp with
  | none => s.spareUnusable n t i
  | some j =>
    let s := (List.range 64).foldl (fun s l => if s.physRepl n t l = i then s.wr (mapAddr t n l) j else s) s
    let s := (s.wrBit66 (healthAddr t n) i false).wrBit66 (readyAddr t n) i false
    let s := ((s.freeRemaps n t i).inc (CTX.RETIRE_CNT n)).healthChg
    let s := s.modTbl n t fun m => { m with wanted := m.wanted.filter fun x => decide (x ≠ i) }
    (s.lineLog n 0x1203 (t.ix * 256 + i)).spareBack n t

/-- The map places an evaluator serves become another's. -/
def State.evalMove (s : State) (n i j : Nat) : State :=
  (List.range 32).foldl (fun s k => if s.rd (FEC.EVAL_MAP n k) = i then s.wr (FEC.EVAL_MAP n k) j else s) s

/-- Retire an evaluator (R157); the second component is the evaluator that took over. -/
def State.retireEval (s : State) (n i : Nat) (sp : Option Nat) : State × Option Nat :=
  let s := (s.wrBit (FEC.EVAL_HEALTH n) i false).wrBit (FEC.EVAL_READY n) i false
  let s := (s.modRx n fun r => { r with mismatches := r.mismatches.filter fun x => decide (x.1 ≠ i ∧ x.2 ≠ i),
                                         evalCycle := r.evalCycle.filter fun x => decide (x.1 ≠ i) }).healthChg
  if !s.evalServes n i then (s, none)
  else match sp with
    | some j => (s.evalMove n i j, some j)
    | none =>
      let p := ((List.range 16).filter fun p => decide (s.rd (FEC.EVAL_MAP n p) ≠ 0x3F)).getLastD 0
      let a := s.rd (FEC.EVAL_MAP n p)
      let b := s.rd (FEC.EVAL_MAP n (16 + p))
      let s := (s.wr (FEC.EVAL_MAP n p) 0x3F).wr (FEC.EVAL_MAP n (16 + p)) 0x3F
      let r := if i = a then (s.evalSpare n b, none)
        else if i = b then (s.evalSpare n a, none)
        else ((s.evalMove n i (min a b)).evalSpare n (max a b), some (min a b))
      let s := (r.1.wrBit (FEC.FLAGS n) 4 true).modRx n fun x => { x with degDec := true, removed := x.removed ++ [p] }
      let s := (s.rxDegraded n).wr (FEC.SCHED_SERVED n) (s.rd (FEC.SCHED_SERVED n) - 1)
      (s.lineLog n 0x1304 (s.rd (FEC.SCHED_SERVED n)) true, r.2)

/-- A retirement at its boundary: an evaluator's is derived again from the schedule then active (Table 5-8). -/
def State.again (s : State) (x : Retirement) : Retirement :=
  match x.kind with
  | .evaluator => if x.spare.any fun e => s.evalServes x.lane e then s.armItem [] [] { x with spare := none } else x
  | _ => x

/-- One retirement takes effect, with its final reply; one whose spare no longer meets the rules does not (R143, R175). -/
def State.applyItem (s : State) (x : Retirement) : State :=
  let x := s.again x
  match x.refused.or (s.unitRules x 1 (x.spare.isNone && s.inService x.kind x.lane x.index).toNat) with
  | some nm => s.refuseItem x nm
  | none =>
    let r : State × Option Nat := match x.kind with
      | .slice => (s.retireSlice x.lane x.index x.spare, x.spare)
      | .ctxReplica => (s.retireReplica x.lane .ctx x.index x.spare, x.spare)
      | .shpReplica => (s.retireReplica x.lane .shp x.index x.spare, x.spare)
      | .evaluator => s.retireEval x.lane x.index x.spare
      | .subDac => (s, none)
    r.1.okIf x.ref (le 8 s.tickno ++ [byteOf (r.2.getD 0xFF)])

/-- UNIT_COMMIT_SWAP (R137): the retirements take effect, those of an L200 die beside an L400 die at its own boundary
(R12), and returning replicas join the spares (R139). -/
def execUnitCommitSwap (s : State) : Result := finish s <|
  match s.unit with
  | none => .next s
  | some u =>
    if !s.unitDue || s.dueBefore .unit then .next s
    else
      let later := u.items.filter fun x => !s.itemDue u x
      let now := u.items.filter (s.itemDue u)
      let s := now.foldl State.applyItem { s with unit := if later = [] then none else some { u with items := later } }
      let s := (List.range 8).foldl (fun s n =>
        [Tbl.ctx, Tbl.shp].foldl (fun s t => s.modTbl n t fun m => { m with
          returning := m.returning.filter fun r => !m.prepared.contains r, prepared := [] }) s) s
      .next ((List.range 8).foldl (fun s n => (s.askWaiting n .ctx).askWaiting n .shp) s)

end Sys2Proof.Machine
end

