-- ==== Sys2Proof/Machine/Loads.lean ====
section
/-!
DEFINITION. TABLE_LOAD and TABLE_READ (R72, R92, R125, R128, R155, R182, R308, Tables 10-4, 10-7 and 10-13).
-/

namespace Sys2Proof.Machine

/-! ### Kinds (Table 10-7) -/

/-- Words of a set of a kind; none for a kind Table 10-7 does not list. -/
def kindSize (kind : Nat) : Option Nat :=
  match kind with
  | 0x01 => some 4099
  | 0x02 => some 1026
  | 0x03 => some 35
  | 0x07 => some 228
  | 0x08 => some 16
  | 0x09 => some 18
  | 0x0A => some 17
  | 0x0D => some 66
  | _ => none
/-- Instances a kind has: line lanes, host lanes or dies. -/
def kindInst (kind : Nat) : Nat := if kind = 0x08 then 16 else if kind = 0x0D then 2 else 8
/-- Target code of a kind's instance on the publish path. -/
def kindTarget (kind inst : Nat) : Nat := if kind = 0x08 then 16 + inst else inst

/-- The content check that word `i` of a set fails (Table 10-13). -/
def wordFails (kind : Nat) (w : List Nat) (i : Nat) : Option String :=
  let v := w.getD i 0
  let x := sgn 16 v
  match kind with
  | 0x01 =>
    if i = 1 ∧ 2 ≤ v then some "RESERVED"
    else if i = 2 ∧ v ≠ 0x8000 ∧ (x < -160 ∨ 500 < x) then some "TEMP_RANGE" else none
  | 0x02 => if (i = 1 ∧ 2 ≤ v) ∨ (2 ≤ i ∧ v % 16 ≠ 0) then some "RESERVED" else none
  | 0x03 =>
    if i = 1 ∧ v ∉ [17, 21, 25, 29, 33] then some "TAP_COUNT"
    else if 2 ≤ i ∧ w.getD 1 0 ≤ i - 2 ∧ v ≠ 0 then some "TAP_NONZERO" else none
  | 0x07 =>
    if (i = 1 ∨ i = 2) ∧ x ≤ sgn 16 (w.getD (i - 1) 0) then some "THR_ORDER"
    else if 4 ≤ i ∧ 1024 ≤ v then some "RESERVED"
    else if 4 ≤ i ∧ (i - 4) % 7 ≠ 0 ∧ v < w.getD (i - 1) 0 then some "ROW_ORDER" else none
  | 0x08 =>
    if i = 1 ∧ 30 < v then some "RANGE"
    else if 2 ≤ i ∧ i ≤ 14 ∧ (x < -128 ∨ 127 < x) then some "RANGE"
    else if i = 15 ∧ v ≠ 0 then some "RESERVED" else none
  | 0x09 =>
    if (i = 0 ∧ 8 ≤ v) ∨ (i = 1 ∧ v ≠ 0) ∨ (3 ≤ i ∧ i % 2 = 1 ∧ v % 32 ≠ 0) then some "RESERVED" else none
  | 0x0A => if 1 ≤ i ∧ (256 ≤ v ∨ v.testBit 6) then some "RESERVED" else none
  | 0x0D =>
    if (i = 1 ∧ v ≠ 0) ∨ (2 ≤ i ∧ i % 2 = 0 ∧ v % 2048 ≠ 0) ∨ (3 ≤ i ∧ i % 2 = 1 ∧ 7 ≤ v / 8192) then some "RESERVED"
    else none
  | _ => none

/-- The first failing content check of a set, with its word index. -/
def contentFails (kind : Nat) (w : List Nat) : Option (String × Nat) :=
  (List.range w.length).findSome? fun i => (wordFails kind w i).map fun nm => (nm, i)

/-! ### TABLE_LOAD (R308) -/

/-- `n` half-words from byte `i` on. -/
def halves (ps : List Byte) (i n : Nat) : List Nat := (List.range n).map fun k => getLe ps (i + 2 * k) 2

/-- The load of a kind and instance that is between segments. -/
def State.openLoad (s : State) (kind inst : Nat) : Option Load :=
  s.loads.find? fun l => decide (l.kind = kind ∧ l.inst = inst ∧ l.phase = .between)

/-- A load begins: an earlier one between segments is abandoned, a publish of the table that is not armed is displaced
(R128), and a table domain is powered (R118). -/
def State.loadBegin (s : State) (kind inst : Nat) : State :=
  let s := match s.openLoad kind inst with
    | some l => s.dropLoad l
    | none => s
  let tgt := kindTarget kind inst
  let s := match s.findPub kind tgt with
    | some p => if p.phase = .armed then s else s.displace kind tgt
    | none => s
  match tblOfKind kind with
  | some t => s.powerTable inst t
  | none => s

/-- The last segment has passed its checks: the set of the same kind and instance that was HELD is replaced, and the
write starts, or waits for an armed publish or an earlier write. -/
def State.loadLast (s : State) (r : ReqRef) (l : Load) : State :=
  let l' : Load := { l with phase := .waits, epoch := s.now (dieOfLoad l.kind l.inst), ref := some r }
  let s := (s.dropLoad l).modDom (s.domOfDie (dieOfLoad l.kind l.inst)) fun m => { m with
    held := m.held.filter fun x => decide (¬ (x.kind = l.kind ∧ x.inst = l.inst)) }
  let s := (s.accepted r []).startOp r (l.kind * 256 + l.inst)
  match tblOfKind l.kind with
  | none => { s with loads := s.loads ++ [{ l' with phase := .writing }] }
  | some t =>
    let s := { s with loads := s.loads ++ [l'] }
    if s.loadMayStart l.inst t then s.loadStart l.inst t l' else s

/-- TABLE_LOAD. -/
def svcTableLoad : Service := fun r ps s =>
  let kind := getLe ps 0 1
  let inst := getLe ps 1 1
  let seg := getLe ps 2 1
  let off := getLe ps 4 2
  let n := getLe ps 6 2
  if ps.length < 8 ∨ n = 0 ∨ 2044 < n ∨ ps.length ≠ 8 + 2 * n then s.bad r .badLength
  else if (kindSize kind).isNone ∨ kindInst kind ≤ inst ∨ 1 < getLe ps 3 1 then s.bad r .badAddress
  else
    let cur : Option Load := if seg = 0 then some ⟨kind, inst, 0, [], .between, 0, none⟩ else s.openLoad kind inst
    match cur with
    | none => s.refuse r .precondition "SEG_ORDER"
    | some l =>
      if l.next ≠ seg ∨ l.words.length ≠ off then
        (match s.openLoad kind inst with
          | some o => s.dropLoad o
          | none => s).refuse r .precondition "SEG_ORDER"
      else
        let s1 := if seg = 0 then s.loadBegin kind inst else s.dropLoad l
        let l : Load := { l with next := seg + 1, words := l.words ++ halves ps 8 n }
        if getLe ps 3 1 = 0 then { s1 with loads := s1.loads ++ [l] }.ok r (le 2 l.words.length)
        else if some l.words.length ≠ kindSize kind then s1.bad r .badLength
        else match contentFails kind l.words with
          | some (nm, i) => s1.refuse r .conflict nm i
          | none =>
            if s1.commitUses kind inst then s1.refuse r .busy "COMMIT_PEND"
            else { s1 with loads := s1.loads ++ [l] }.loadLast r l

/-! ### TABLE_READ (Table 10-4) -/

/-- A half-word of a signed value. -/
def half16 (w v : Nat) : Nat := enc 16 (sgn w v)

/-- The active set of a small kind, in the layout of Table 10-7. -/
def State.activeSet (s : State) (kind n : Nat) : List Nat :=
  match kind with
  | 0x03 => [(s.rxL n).ffeSetId, (s.rxL n).ffeDecl] ++ (s.rdList (LRX.FFE_COEF n 0) 33).map (half16 10)
  | 0x07 => (s.rxL n).llr
  | 0x08 => [(s.hostL n).eqSetId, s.rd (HRX.CTLE_PEAK n)] ++ (s.rdList (HRX.FFE_COEF n 0) 12).map (half16 8) ++
      [half16 8 (s.rd (HRX.DFE_COEF n)), 0]
  | 0x09 => (s.rxL n).gain.flatMap fun w => [w % 65536, w / 65536]
  | 0x0A => s.rd (FEC.SCHED_SET_ID n) :: s.rdList (FEC.SCHED n 0) 16
  | _ => (s.rd (JNR.SCHED_SET_ID n) :: s.rdList (JNR.SCHED n 0) 32).flatMap fun w => [w % 65536, w / 65536]

/-- The master copy of a small kind: FFE and host equaliser sets have one in the Joiner's data memory (Table 7-1), the
recipe-supplied tables in the management memory, where the set in service stands until a commit replaces it (R27). -/
def State.masterSmall (s : State) (kind n : Nat) : Option (List Nat) :=
  let tgt := kindTarget kind n
  let dm := (s.jn (s.servJ (dieOfTarget tgt))).dm
  let a := (masterArea kind tgt).1
  match kind with
  | 0x03 => some ([dmHalf dm (stampArea 3 tgt), dmHalf dm (a + 66)] ++ (List.range 33).map fun i => half16 10 (dmHalf dm (a + 2 * i)))
  | 0x08 => some ((List.range 16).map fun i => dmHalf dm (a + 2 * i))
  | _ => some (((s.mgmt.find? fun x => decide (x.kind = kind ∧ x.inst = n)).map (·.words)).getD (s.activeSet kind n))

/-- The set in the shadow of a small kind: the one HELD or frozen. -/
def State.shadowSet (s : State) (kind n : Nat) : Option (List Nat) :=
  let m := s.dom (s.domOfDie (dieOfLoad kind n))
  let all := m.held ++ (match m.commit with
    | some c => c.tables
    | none => [])
  (all.find? fun x => decide (x.kind = kind ∧ x.inst = n)).map (·.words)

/-- What TABLE_READ reads of an entry of a table memory: the decoded word and the stored codeword. -/
def State.readEntry (s : State) (kind n : Nat) (t : Tbl) (src repl a : Nat) : Option Nat × Nat :=
  if src = 0 then
    let v := s.masterEntry kind n a
    (if (s.tbl n t).masterBad.contains a then none else some v, storeWord v)
  else
    let b := if src = 1 then s.actBank n t else s.shadowBank n t
    (match s.readRepl n t b repl a with
    | .clean v | .corrected v => some v
    | .bad => none, (s.tbl n t).stored b repl a)

/-- Words of a set no rule gives (log 2). -/
def State.freeWords (s : State) (n : Nat) : List Nat := (List.range n).map fun i => (Config.freeValue (s.free + i)).toNat % 2 ^ 26

/-- The words TABLE_READ returns, from the first on, and free values drawn. -/
def State.tableWords (s : State) (kind n src repl first count : Nat) : Option (List (Option Nat × Nat) × Nat) :=
  match tblOfKind kind with
  | some t =>
    if src ≠ 0 ∧ !(s.tbl n t).powered then some ((s.freeWords count).map fun v => (some (v % 65536), v), count)
    else some ((List.range count).map fun i => s.readEntry kind n t src repl (first + i), 0)
  | none =>
    let plain := fun (w : List Nat) => some (((w.drop first).take count).map fun v => (some v, v), 0)
    match src with
    | 0 => (s.masterSmall kind n).bind plain
    | 1 => plain (s.activeSet kind n)
    | _ => match s.shadowSet kind n with
      | some w => plain w
      | none => some ((s.freeWords count).map fun v => (some (v % 65536), v % 65536), count)

/-- Words of a kind that TABLE_READ addresses: the entries of a table memory, else the words of the set. -/
def readSize (kind : Nat) : Nat :=
  match kind with
  | 0x01 => 4096
  | 0x02 => 1024
  | _ => (kindSize kind).getD 0

/-- TABLE_READ. -/
def svcTableRead : Service := fun r ps s =>
  let kind := getLe ps 0 1
  let inst := getLe ps 1 1
  let src := getLe ps 2 1
  let repl := getLe ps 3 1
  let first := getLe ps 4 2
  let n := getLe ps 6 2
  let raw := decide (getLe ps 8 1 = 1)
  if !okLen ps [9] ∨ n = 0 ∨ (if raw then 1020 else 2040) < n then s.bad r .badLength
  else if (kindSize kind).isNone ∨ kindInst kind ≤ inst ∨ 2 < src ∨ 1 < getLe ps 8 1 ∨
      (src ≠ 0 ∧ (tblOfKind kind).isSome ∧ 66 ≤ repl) ∨ readSize kind < first + n then s.bad r .badAddress
  else match s.tableWords kind inst src repl first n with
    | none => s.bad r .badAddress
    | some (ws, drawn) =>
      let bad := (List.range n).filter fun i => ((ws.getD i (none, 0)).1).isNone
      let data := if raw then ws.flatMap fun x => le 4 x.2 else ws.flatMap fun x => le 2 (x.1.getD 0)
      let firstBad := match bad with
        | i :: _ => first + i
        | [] => 0xFFFF
      { s with free := s.free + drawn }.ok r (le 2 n ++ le 2 bad.length ++ le 2 firstBad ++ [0, 0] ++ data)

end Sys2Proof.Machine
end

