-- ==== Sys2Proof/Machine/Observe.lean ====
section
/-!
DEFINITION. Capture triggers and ends, histogram runs, the end of log suppression (R471, R476, R479).
-/

namespace Sys2Proof.Machine

/-- CAPTURE_TRIGGER (R471): the armed event has fixed its position; a TICKNO trigger fires at its boundary. -/
def execCaptureTrigger (n : Lane) (s : State) : Result := finish s <|
  let n := n.val
  let c := s.cap n
  let s := if c.trigger = 5 ∧ reached s.tickno c.trigTick ∧ s.rd (OBS.CAP_STATE n) = 1 then
      s.capEvent n 5 (s.rd (OBS.CAP_WPOS n)) else s
  match (s.cap n).hit with
  | none => .next s
  | some p =>
    if s.rd (OBS.CAP_STATE n) ≠ 1 then .next s
    else
      let s := ((s.wr (OBS.CAP_STATE n) 2).wr (OBS.CAP_TRIG_POS n) p).wrBit (OBS.CAP_FLAGS n) 2 true
      let s := s.modCap n fun c => { c with hit := none, firedAt := s.tickno }
      .next (s.logEv { level := 1, die1 := decide (n ≥ 4), inst := n, code := 0x7001, detail := p })

/-- CAPTURE_END (R471): the post-trigger words are written. -/
def execCaptureEnd (n : Lane) (s : State) : Result := finish s <|
  let n := n.val
  if s.capLeft n ≠ some 0 then .next s
  else
    let s := s.wr (OBS.CAP_STATE n) 3
    let c := s.cap n
    let s := s.okIf c.ref (le 4 (s.rd (OBS.CAP_TRIG_POS n)) ++ le 8 c.firedAt)
    let s := match c.ref with
      | some r => s.endOp r.rid
      | none => s
    .next (s.modCap n fun c => { c with ref := none })

/-- HIST_RUN_END (R476): the counts are published; a continuous run starts again. -/
def execHistRunEnd (n : Lane) (s : State) : Result := finish s <|
  let n := n.val
  match s.hists.getD n none with
  | none => .next s
  | some h =>
    if h.left ≠ 0 then .next s
    else
      let s := (s.wrList (OBS.HIST_BIN (64 * n)) h.bins).inc (OBS.HIST_SEQ n)
      let s := { s with hists := modNth none s.hists n fun _ => none }
      .next (if bits (s.rd (OBS.HIST_CFG n)) 30 30 = 1 then s.histStart n else s)

/-- LOG_SUPPRESSION_END (R479): fewer than eight entries of the code and instance lie in the last 1,024 ticks. -/
def execLogSuppressionEnd (code : BitVec 16) (inst : BitVec 8) (s : State) : Result := finish s <|
  let is := fun (x : Suppressed) => decide (x.code = code.toNat ∧ x.inst = inst.toNat)
  match s.suppr.find? is with
  | none => .next s
  | some x =>
    if 8 ≤ s.logRecent x.code x.inst then .next s
    else
      let rest := s.suppr.filter fun y => !is y
      let s := { s with suppr := rest }.wrBit OBS.FLAGS 1 (decide (rest ≠ []))
      .next (s.logEv { level := x.level, die1 := x.die1, inst := x.inst, code := 0x7002,
                       detail := x.code * 65536 + min x.count 65535 })

end Sys2Proof.Machine
end

