-- ==== Sys2Proof/Machine/Services.lean ====
section
/-!
DEFINITION. The services IDENTIFY, STATUS, LANE_UP, LANE_DOWN, RETIRE_UNIT, CALIBRATE, SYSCAL_POINT, CAPTURE_ARM,
CAPTURE_READ and LOG_READ, and the always-on status block (R267, R277, R302, R304, R310, R315, R316, R319, R351, R431,
R470, R474, R477, R481).
-/

namespace Sys2Proof.Machine

/-! ### IDENTIFY and STATUS -/

/-- Bytes 0 to 63 of the IDENTIFY payload (Table 10-4). -/
def State.identity (s : State) : List Byte :=
  nameBytes 8 "UXG3208" ++ [byteOf (s.rd DEV.STEPPING), byteOf (s.rd DEV.PACKAGE), byteOf (s.rd DEV.ROLE),
    byteOf (s.rd DEV.SERVING_DIE)] ++ le 8 (s.rd DEV.SERIAL) ++ le 4 s.sys.images.version ++ le 4 (s.rd DEV.FW_SEQ) ++
    le 4 (s.rd DEV.CFG_SEQ) ++ le 4 (s.rd DEV.BUNDLE_SEQ) ++ le 4 (s.cfgGen 0) ++ le 4 (s.cfgGen 1) ++ le 8 s.tickno ++
    [byteOf (s.rd DEV.SPLIT), byteOf (s.rate 0 + 4 * s.rate 1)] ++ List.replicate 10 0

/-- IDENTIFY. With a nonce the signing engine runs, FUSE powered; the test mode has no key to sign with (R432). -/
def svcIdentify : Service := fun r ps s =>
  if !okLen ps [0, 48] then s.bad r .badLength
  else if ps = [] then s.ok r s.identity
  else if s.sys.jtag.cleared then s.refuse r .denied "TEST_MODE"
  else if s.opRuns 0x01 then s.refuse r .busy "LONG_OP"
  else (((s.modImg fun m => { m with sign := m.sign ++ [(r, s.identity)] }).setDom 90 1).accepted r []).startOp { r with pre := ps } 0

/-- ATTESTATION_SIGN_DONE (R431): the signature of the record and the nonce completes the reply. -/
def execAttestationSignDone (s : State) : Result := finish s <|
  match s.sys.images.sign with
  | [] => .next s
  | (r, rec) :: rest =>
    let nonce := match s.longOps.find? fun o => decide (o.ref.rid = r.rid) with
      | some o => o.ref.pre
      | none => []
    let sig := Config.attest (rec ++ nonce)
    let bytes := (List.range 96).map fun i => byteOf (sig.toNat / 256 ^ (95 - i))
    .next ((((s.modImg fun m => { m with sign := rest }).setDom 90 0).ok r (rec ++ bytes)).endOp r.rid)

/-- The target a STATUS summary shows for a domain. -/
def State.pendTarget (s : State) (d : Nat) : Nat :=
  match (s.dom d).commit with
  | some c => c.target
  | none => 0

/-- Bytes of the STATUS summary (Table 10-4). -/
def State.summary (s : State) : List Byte :=
  let pend := fun (d : Nat) => (s.dom d).commit.isSome.toNat
  [byteOf (s.rd PWR.STATE), byteOf s.sys.mcState, byteOf (s.rd (JNR.STATE 0)), byteOf (s.rd (JNR.STATE 1))] ++
    le 2 (s.rd DEV.MC_RESTART_CNT) ++ [byteOf (pend 0 + 2 * pend 1), byteOf s.longOps.length] ++ le 8 (s.pendTarget 0) ++
    le 8 (s.pendTarget 1) ++ le 4 (s.cfgGen 0) ++ le 4 (s.cfgGen 1) ++ le 2 (s.live0 DEV.STAGED0) ++ le 2 (s.live0 DEV.STAGED1)

/-- STATUS (R302). -/
def svcStatus : Service := fun r ps s =>
  if ps = [] then s.ok r s.summary
  else if ps.length ≠ 3 then s.bad r .badLength
  else
    let via : Option Via := match getLe ps 2 1 with
      | 0 => some .spi
      | 1 => some .i2c
      | _ => none
    match (if getLe ps 0 1 = 1 then s.longOps.find? fun o => decide (some o.ref.via = via ∧ o.ref.tag = ps.getD 1 0) else none) with
    | some o => s.ok r ([byteOf o.ref.op, byteOf o.phase, byteOf o.percent, 0] ++ le 4 o.elapsed ++ le 4 o.remaining ++
        le 4 (o.start % 2 ^ 32))
    | none => s.bad r .badAddress

/-! ### LANE_UP, LANE_DOWN, RETIRE_UNIT (R310) -/

/-- The K field of a pending commit that a LANE_UP at an earlier target would run into. -/
def State.laneConflict (s : State) (line host target : Nat) : Option Nat :=
  s.doms.findSome? fun d => match d.commit with
    | some c =>
      if reached target c.target then none
      else (c.frozen.find? fun x => decide (fieldCls x.1 = some .k) &&
        (let b := blkOf x.1
         let d := dieOfAddr x.1
         if b = 0x01 then decide (line / 16 ^ d % 16 ≠ 0 ∨ host / 256 ^ d % 256 ≠ 0)
         else if b ≤ 0x13 then line.testBit (instOf x.1) else host.testBit (instOf x.1))).map (·.1)
    | none => none

/-- Is no Joiner usable (R427)? -/
def State.noJoiner (s : State) : Bool := !s.joinerUsable 0 && !s.joinerUsable 1

/-- LANE_UP and LANE_DOWN. -/
def svcLane (up : Bool) : Service := fun r ps s =>
  let line := getLe ps 0 1
  let host := getLe ps 2 2
  let target := getLe ps 4 8
  let on := fun (d : Nat) => decide (line / 16 ^ d % 16 ≠ 0 ∨ host / 256 ^ d % 256 ≠ 0)
  if !okLen ps [12] then s.bad r .badLength
  else if getLe ps 1 1 ≠ 0 ∨ 2 ^ 48 ≤ target then s.bad r .badAddress
  else if line = 0 ∧ host = 0 then s.refuse r .precondition "EMPTY"
  else if s.split ∧ on 0 ∧ on 1 then s.bad r .badAddress
  else if s.lanes.any fun q => decide (q.line &&& line ≠ 0 ∨ q.host &&& host ≠ 0) then s.refuse r .busy "LANE_PENDING"
  else if up ∧ (s.rd DEV.REF_STATE = 0 ∨ s.sys.refcal.isSome) then s.refuse r .busy "REFCAL"
  else if up ∧ s.sys.thermShut then s.refuse r .precondition "THERMAL"
  else if up ∧ s.noJoiner then s.refuse r .precondition "NO_JOINER"
  else
    let ds := if s.split then [0, 1].filter on else [0, 1]
    let t := if target = 0 then s.earliest ds else target
    if !s.leadOk t then s.refuse r .precondition "LEAD"
    else match (if up then s.laneConflict line host t else none) with
      | some a => s.refuse r .conflict (kName a) a
      | none => { s with lanes := s.lanes ++ [LaneReq.mk up line host t (some r)] }.accepted r (le 8 t)

/-- Kinds of unit, with how many a lane has. -/
def unitOf : Nat → Option (UnitKind × Nat)
  | 0 => some (.slice, 66)
  | 1 => some (.ctxReplica, 66)
  | 2 => some (.shpReplica, 66)
  | 3 => some (.evaluator, 34)
  | 4 => some (.subDac, 4)
  | _ => none

/-- RETIRE_UNIT (R137, R310). DESIGN CHOICE: a second request for a unit is an item of its own (log 160). -/
def svcRetireUnit : Service := fun r ps s =>
  let n := getLe ps 1 1
  let i := getLe ps 2 1
  if !okLen ps [4] then s.bad r .badLength
  else match unitOf (getLe ps 0 1) with
    | none => s.bad r .badAddress
    | some (k, m) =>
      if 8 ≤ n ∨ m ≤ i ∨ getLe ps 3 1 ≠ 0 then s.bad r .badAddress
      else if s.unit.any fun u => u.armed then s.refuse r .busy "UNIT_PEND"
      else match s.retireRefused k n i [] with
        | some nm => (s.refuse r .precondition nm i).refusedRetire k n i nm
        | none =>
          let u : UnitCommit := s.unit.getD ⟨s.unitTarget % 2 ^ 48, false, []⟩
          { s with unit := some { u with items := u.items ++ [Retirement.mk k n i none none (some r)] } }.accepted r (le 8 u.target)

/-! ### CALIBRATE (R267, R277) -/

/-- REFCAL starts, for the device itself or for a CALIBRATE. -/
def State.refcalStart (s : State) (r : Option ReqRef) : State :=
  let s := s.modSys fun y => { y with refcal := some ⟨false, r⟩, therm := { y.therm with trims := Therm.reset.trims } }
  if s.sys.hk.pass.isSome then s else s.hkIdle

/-- Long operations of CALIBRATE are per line lane; the package is target 32. -/
def calPackage : Nat := 32

/-- CALIBRATE. -/
def svcCalibrate : Service := fun r ps s =>
  let t := getLe ps 0 1
  let n := getLe ps 1 1
  if !okLen ps [4] then s.bad r .badLength
  else if 2 < t ∨ getLe ps 2 2 ≠ 0 ∨ (t < 2 ∧ 8 ≤ n) ∨ (t = 2 ∧ n ≠ 0) then s.bad r .badAddress
  else match t with
    | 0 =>
      let st := s.rd (LRX.STATE n)
      if (s.findOp 0x30 n).isSome then s.refuse r .busy "LONG_OP"
      else if st = 3 then
        let s := ((s.modRx n fun x => { x with bgCal := some s.tickno }).inc DEV.CAL_RUN_CNT).inc DEV.CAL_BG_CNT
        (s.accepted r []).startOp r n
      else if st = 0 then
        ((s.wrBit DEV.RXCAL_VALID_L400 n false).wrBit DEV.RXCAL_VALID_L200 n false).ok r [0, 2, 0, 0]
      else s.refuse r .busy "LANE_STATE"
    | 1 =>
      if s.rd (LTX.STATE n) = 0 then
        ((s.wrBit DEV.TXCAL_VALID_L400 n false).wrBit DEV.TXCAL_VALID_L200 n false).ok r [0, 2, 0, 0]
      else s.refuse r .runLocked "LANE_UP"
    | _ =>
      if (List.range 8).any s.lineUp then s.refuse r .runLocked "LANE_UP"
      else if (s.findOp 0x30 calPackage).isSome ∨ s.sys.refcal.isSome then s.refuse r .busy "LONG_OP"
      else
        let s := s.wrList DEV.RXCAL_VALID_L400 [0, 0, 0, 0]
        ((s.refcalStart (some r)).accepted r []).startOp r calPackage

/-- Steps 1 and 2 of REFCAL end (Table 9-2, R268), once: with a mean, 2^-14 V, accepted from 0.950 V to 1.050 V, or without
one. -/
def State.refJudge (s : State) (vref : Option Nat) : State :=
  match s.sys.refcal with
  | none => s
  | some c =>
    if c.judged then s
    else
      let s := s.modSys fun y => { y with refcal := some { c with judged := true } }
      let st := match vref with
        | none => 3
        | some v => if 950 * 2 ^ 14 ≤ v * 1000 ∧ v * 1000 ≤ 1050 * 2 ^ 14 then 1 else 2
      let s := match vref with
        | none => s
        | some v => s.wr DEV.VREF_MEAS v
      let s := s.wr DEV.REF_STATE st
      if st = 1 then s else s.logEv { level := 4, irq := true, code := 0x0107, detail := st }

/-- REFCAL_STEP_TIMEOUT (Table 9-2, R268): step 1 leaves the bandgap as the reference; steps 4 and 5 mark the lane's source
or sense reference failed. -/
def execRefcalStepTimeout (step : RefStep) (n : Lane) (s : State) : Result := finish s <|
  match s.sys.refcal with
  | none => .next s
  | some _ => .next (match step with
    | .reference => s.refJudge none
    | .source vref => ((s.refJudge (some vref.toNat)).wrBit DEV.CALSRC_FAIL n.val true).logEv
        { level := 4, code := 0x0108, detail := n.val }
    | .sense vref => ((s.refJudge (some vref.toNat)).wrBit DEV.TXSENSE_FAIL n.val true).logEv
        { level := 4, code := 0x0108, detail := 0x100 + n.val })

/-- REFCAL_COMPLETE (Table 9-2, R268): `vref` is the mean of step 1, 2^-14 V; a reference from 0.950 V to 1.050 V is
accepted. Sources and senses in the masks trimmed within their bounds. -/
def execRefcalComplete (vref : BitVec 16) (calOk txOk : BitVec 8) (s : State) : Result := finish s <|
  match s.sys.refcal with
  | none => .next s
  | some c =>
    let s := (s.refJudge (some vref.toNat)).modSys fun y => { y with refcal := none }
    let s := (s.wr DEV.CALSRC_FAIL (s.rd DEV.CALSRC_FAIL &&& (255 - calOk.toNat))).wr DEV.TXSENSE_FAIL
      (s.rd DEV.TXSENSE_FAIL &&& (255 - txOk.toNat))
    let s := if s.sys.hk.pass.isSome then s else s.hkIdle
    let s := if s.sys.power.cold = 8 then
        (s.modSys fun y => { y with power := { y.power with cold := 9 } }).wr RST.BOOT_STEP 9
      else s
    .next ((s.okIf c.ref [0, 3, 0, 0]).endOpIf c.ref)

/-! ### SYSCAL_POINT (R316, R351) -/

/-- The coefficients of step 2: offset and gain, to the nearest; none where the gain does not fit its field. -/
def sysGain (z f d : Nat) : Option Nat :=
  let num : Int := 2 ^ 14 * ((d : Int) - 2048)
  let den : Int := (f : Int) - z
  let g := (2 * num + den) / (2 * den)
  if 0 ≤ g ∧ g < 65536 then some g.toNat else none

/-- SYSCAL_POINT. -/
def svcSyscalPoint : Service := fun r ps s =>
  let input := getLe ps 0 1
  let step := getLe ps 1 1
  let h := s.sys.hk
  if !okLen ps [8] then s.bad r .badLength
  else if 31 < input ∨ 3 < step ∨ getLe ps 2 2 ≠ 0 then s.bad r .badAddress
  else if (s.findOp 0x31 0).isSome then s.refuse r .busy "LONG_OP"
  else match step with
    | 2 =>
      match h.zero, h.full with
      | some z, some (f, d) =>
        if h.calInput ≠ input then s.refuse r .precondition "NO_POINTS"
        else if f < z + 32768 then s.refuse r .precondition "SPAN"
        else
          let g := match sysGain z f d with
            | some g => g
            | none => s.draw.1.toNat % 65536
          let due := s.nextBoundary [0]
          let ws := [LiveWrite.mk (HK.SYSCAL_OFS input) z due, LiveWrite.mk (HK.SYSCAL_GAIN input) g due]
          let v := s.draw.2.draw.1.toNat
          let s := { s with live := s.live ++ ws, free := s.free + 2 }
          s.done r (le 2 (v % 65536) ++ le 2 (v / 65536 % 65536) ++ [byteOf s.points])
      | _, _ => s.refuse r .precondition "NO_POINTS"
    | 3 =>
      let v := s.draw.1.toNat
      let s := s.draw.2.modHk fun h => { h with zero := none, full := none }
      s.done r (le 2 (v % 65536) ++ le 2 (v / 65536 % 65536) ++ [0])
    | _ =>
      let s := if h.calInput = input then s else s.modHk fun h => { h with zero := none, full := none, calInput := input }
      let c : CalRun := ⟨step, input, getLe ps 4 4, 0, 0, 0⟩
      ((s.modHk fun h => { h with cal := some c }).accepted r []).startOp r 0

/-! ### Capture (R315, R470, R474) -/

/-- CAPTURE_ARM. -/
def svcCaptureArm : Service := fun r ps s =>
  let n := getLe ps 0 1
  let point := getLe ps 1 1
  let trig := getLe ps 2 1
  let pre := getLe ps 4 4
  let post := getLe ps 8 4
  let tick := getLe ps 12 8
  let busy := decide (s.rd (OBS.CAP_STATE n) = 1 ∨ s.rd (OBS.CAP_STATE n) = 2)
  if !okLen ps [20] then s.bad r .badLength
  else if 8 ≤ n ∨ 5 < point ∨ 6 < trig ∨ getLe ps 3 1 ≠ 0 ∨ 2 ^ 48 ≤ tick then s.bad r .badAddress
  else if trig = 6 then
    if busy then
      let s := s.refuseIf (s.cap n).ref .denied "CANCELLED"
      let s := (s.endOpIf (s.cap n).ref).modCap n fun c => { c with ref := none, hit := none }
      (s.wr (OBS.CAP_STATE n) 0).done r (le 4 (s.rd (OBS.CAP_TRIG_POS n)) ++ le 8 (s.cap n).firedAt)
    else s.done r (le 4 (s.rd (OBS.CAP_TRIG_POS n)) ++ le 8 (s.cap n).firedAt)
  else if s.rd (LRX.STATE n) = 0 then s.refuse r .precondition "LANE_DOWN"
  else if busy then s.refuse r .busy "LONG_OP"
  else if post = 0 ∨ ringSize < pre + post then s.refuse r .conflict "CAP_LENGTH"
  else if trig = 0 ∧ pre ≠ 0 then s.refuse r .conflict "PRE_TRIGGER"
  else if trig = 5 ∧ (ticksSince tick s.tickno < 2 ∨ 2 ^ 47 ≤ ticksSince tick s.tickno) then s.refuse r .precondition "LEAD"
  else
    let s := s.modCap n fun _ => { CapRing.reset with
      point := point, trigger := trig, pre := pre, post := post, trigTick := tick, ref := some r
      hit := if trig = 0 then some 0 else none }
    let s := ((s.wr (OBS.CAP_STATE n) 1).wr (OBS.CAP_FLAGS n) 0).wr (OBS.CAP_WPOS n) 0
    (((s.wr (OBS.CAP_TRIG_POS n) 0).wr (OBS.CAP_MARK n) 0).accepted r []).startOp r n

/-- CAPTURE_READ. -/
def svcCaptureRead : Service := fun r ps s =>
  let n := getLe ps 0 1
  let from_ := getLe ps 1 1
  let cnt := getLe ps 2 2
  let off := getLe ps 4 4
  let fl := s.rd (OBS.CAP_FLAGS n)
  let w := s.rd (OBS.CAP_WPOS n)
  let oldest := if w < ringSize then 0 else w - ringSize
  if !okLen ps [8] ∨ cnt = 0 ∨ 255 < cnt then s.bad r .badLength
  else if 8 ≤ n ∨ 2 < from_ then s.bad r .badAddress
  else if from_ = 1 ∧ fl.testBit 1 then s.refuse r .truncated "TRUNCATED" oldest
  else if from_ = 1 ∧ !fl.testBit 0 then s.refuse r .precondition "NO_MARK"
  else if from_ = 0 ∧ !fl.testBit 2 then s.refuse r .precondition "NO_TRIGGER"
  else
    let base := if from_ = 0 then s.rd (OBS.CAP_TRIG_POS n) else if from_ = 1 then s.rd (OBS.CAP_MARK n) else 0
    let first := (base + off) % 2 ^ 32
    let behind := (w + 2 ^ 32 - first) % 2 ^ 32
    if ringSize < behind ∧ behind < 2 ^ 31 then s.refuse r .truncated "TRUNCATED" oldest
    else
      let k := if behind < 2 ^ 31 then min cnt behind else 0
      let c := s.cap n
      let isBad := fun (i : Nat) => c.bad.contains ((first + i) % ringSize)
      let words := (List.range k).flatMap fun i => if isBad i then le 16 0 else le 16 (spGet 0 c.words ((first + i) % ringSize))
      (s.add OBS.CAP_UNCORR ((List.range k).filter isBad).length).ok r (le 4 first ++ le 2 k ++ [0, 0] ++ words)

/-! ### LOG_READ (R477, R481) -/

/-- The 16 bytes of an entry (Table 17-2). -/
def LogEntry.bytes (e : LogEntry) : List Byte :=
  let b := if e.cont then
      (let d := (e.data ++ List.replicate 13 0).take 13
       d.take 6 ++ [0x80] ++ d.drop 6)
    else
      le 6 e.tick ++ [byteOf (e.level + 8 * e.irq.toNat + 16 * e.fault.toNat + 32 * e.die1.toNat + 64 * e.more.toNat),
        byteOf e.inst] ++ le 2 e.code ++ le 4 e.detail
  sealed b

/-- LOG_READ. -/
def svcLogRead : Service := fun r ps s =>
  let first := getLe ps 0 4
  let n := getLe ps 4 1
  let oldest := s.rd OBS.LOG_OLDEST
  if !okLen ps [8] then s.bad r .badLength
  else if n = 0 ∨ getLe ps 5 3 ≠ 0 then s.bad r .badAddress
  else
    let q := if first = 0xFFFFFFFF then oldest else first
    let ahead := (q + 2 ^ 32 - oldest) % 2 ^ 32
    if 2 ^ 31 ≤ ahead then s.refuse r .truncated "TRUNCATED" oldest
    else
      let es := (s.log.drop ahead).take n
      s.ok r (le 4 q ++ [byteOf es.length, 0, 0, 0] ++ es.flatMap LogEntry.bytes)

/-! ### The always-on status block (R319) -/

/-- A mask over numbers below `n`. -/
def maskIf (n : Nat) (p : Nat → Bool) : Nat := maskOf ((List.range n).filter p)

/-- Hottest junction as a signed byte of 1 °C, rounded down. -/
def State.tjMax (s : State) : Nat := enc 8 (asr (s.rdS THM.TJ_MAX) 2)

/-- The 64 bytes of the status block. -/
def State.statusBlock (s : State) : List Byte :=
  let p := s.sys.pins
  let f := s.rd PWR.FLAGS
  let bkup := f.testBit 0
  let supply := (!bkup).toNat + 2 * bkup.toNat + 4 * (f.testBit 1).toNat + 8 * p.pgCore.toNat + 16 * p.pgAna.toNat + 32 * p.pgHv.toNat
  let t := s.rd THM.FLAGS
  let therm := if t.testBit 2 then 3 else if t.testBit 1 then 2 else if t.testBit 0 then 1 else 0
  let places := fun (v : Via) => 4 - min 4 (s.trans v).outstanding.length
  let newest := match s.log.reverse.find? fun e => !e.cont with
    | some e => e.code
    | none => 0
  sealed (le 2 1 ++ le 6 s.tickno ++ [byteOf (s.rd PWR.STATE), byteOf s.sys.mcState, byteOf (s.rd RST.CAUSE), byteOf supply,
    byteOf (s.rd OBS.FAULT_STAT), byteOf (s.rd OBS.IRQ_STAT), byteOf s.tjMax, byteOf therm,
    byteOf (maskIf 8 s.lineUp), byteOf (maskIf 8 fun n => decide (s.rd (LRX.STATE n) = 3))] ++
    le 2 (maskIf 16 fun k => decide (s.rd (HRX.STATE k) = 4)) ++
    [byteOf (maskIf 8 fun n => s.bit (LRX.FLAGS n) 3 || s.bit (LTX.FLAGS n) 3), byteOf (maskIf 8 fun n => s.bit (LRX.FLAGS n) 0)] ++
    le 2 (maskIf 16 fun k => s.bit (HRX.FLAGS k) 0) ++ le 4 (s.rd OBS.LOG_SEQ) ++ le 2 newest ++
    [byteOf s.spi.replies.length, byteOf s.i2c.replies.length, byteOf (places .spi), byteOf (places .i2c)] ++
    le 4 (s.cfgGen 0) ++ le 4 (s.cfgGen 1) ++ le 2 (s.rd DEV.MC_RESTART_CNT) ++
    [byteOf (s.rd DEV.SERVING_DIE), byteOf (s.sys.txDis.toNat + 2 * p.wakeN.toNat + 4 * p.role)] ++ le 4 (s.rd DEV.FW_SEQ) ++
    List.replicate 12 0)

/-- STATUS_BLOCK_READ (R298, R299, R319): `n` bytes from the pointer on, wrapping at 64. -/
def execStatusBlockRead (via : Via) (ptr : BitVec 6) (count : Nat) (s : State) : Result := finish s <|
  let b := s.statusBlock
  .next (s.modTrans via fun t => { t with out := (List.range count).map fun i => b.getD ((ptr.toNat + i) % 64) 0 })

/-- I2C_SCL_TIMEOUT (R300): the target drops the transaction. -/
def execI2cSclTimeout (s : State) : Result := finish s <| .next (s.modTrans .i2c fun t => { t with out := [] })

/-- PROGRESS_UPDATE (R302): new figures of the operation of a tag. -/
def execProgressUpdate (via : Via) (tag : Byte) (phase percent elapsed remaining : Nat) (s : State) : Result := finish s <|
  .next { s with longOps := s.longOps.map fun (o : LongOp) =>
    if o.ref.via = via ∧ o.ref.tag = tag then
      { o with phase := phase % 256, percent := min 100 percent, elapsed := elapsed % 2 ^ 32, remaining := remaining % 2 ^ 32 }
    else o }

end Sys2Proof.Machine
end

