-- ==== Sys2Proof/Machine/ResetOps.lean ====
section
/-!
DEFINITION. Operations of resets, cold starts, the health record and controller restarts (R39, R118, R119, R333, R406 to
R412, R421 to R428, R436, R458).
-/

namespace Sys2Proof.Machine

def State.modPow (s : State) (f : Power → Power) : State := s.modSys fun y => { y with power := f y.power }

/-! ### What a cold start keeps (Tables 11-5 and 15-2) -/

/-- Fields of the always-on health record (Table 15-11). -/
def isHealth (a : Nat) : Bool :=
  let o := offOf a
  match blkOf a with
  | 0x10 => decide (o = 0x0090 ∨ o = 0x0091)
  | 0x11 => decide (o = 0x0054)
  | 0x12 => decide (0x00A0 ≤ o ∧ o ≤ 0x00A3) || decide (0x00B0 ≤ o ∧ o ≤ 0x00B7)
  | 0x13 => decide (o = 0x0050)
  | 0x51 => decide (o = 0x0017 ∨ o = 0x0030) || decide (0x0034 ≤ o ∧ o ≤ 0x0036)
  | _ => false
/-- Fields that report fuses. -/
def isFused (a : Nat) : Bool :=
  decide (a = DEV.SERIAL) || (decide (blkOf a = 0x51) && (decide (offOf a = 0x001B ∨ offOf a = 0x001C) || decide (0x0040 ≤ offOf a)))
/-- Fields of the event log. -/
def isLog (a : Nat) : Bool := decide (a = OBS.FLAGS ∨ a = OBS.LOG_SEQ ∨ a = OBS.LOG_OLDEST ∨ a = OBS.LOG_SUPPR_CNT ∨ a = OBS.LOG_DISCARD_CNT)

/-- How a cold start came about. -/
inductive ColdKind where
  | por | pin | wake
  deriving DecidableEq, Repr

/-- Fields a cold start of each kind keeps; the retry fields of a wake from DIAPAUSE are in force until the boot commit
(R410). -/
def coldKeeps (k : ColdKind) (a : Nat) : Bool :=
  isFused a || (match k with
  | .por => false
  | .pin => isHealth a || isLog a || (decide (blkOf a = 0x51) && fieldAon a)
  | .wake => isHealth a || (fieldAon a && decide (a ≠ DEV.SPLIT ∧ a ≠ DEV.I2C_ADDR)) ||
      decide (a = PWR.WAKE_RETRIES ∨ a = PWR.WAKE_RETRY_MS))

/-- A table memory after a cold reset: off; which replicas a self-test has passed is known while the always-on island
stays up (R139, log 175). -/
def keepReturning (m : TblMem) : TblMem := { TblMem.reset with returning := m.returning }

/-- The device right after a cold reset, or as a wake from DIAPAUSE begins its cold start. -/
def State.coldReset (s : State) (k : ColdKind) : State :=
  let aon := decide (k = .wake)
  let log := decide (k ≠ .por)
  let y : Sys := { Sys.reset with
    txDis := s.sys.txDis, thermShut := log && s.sys.thermShut, pins := s.sys.pins, avsOk := true
    therm := { Therm.reset with s7 := s.sys.therm.s7, aonShut := log && s.sys.therm.aonShut }
    images := { Images.reset with flash := s.sys.images.flash, keys := s.sys.images.keys }
    jtag := if aon then s.sys.jtag else .reset
    power := { Power.reset with refs := if aon then s.sys.power.refs else [], tries := if aon then s.sys.power.tries else 0,
                                fromSleep := aon, mask := if aon then s.sys.power.mask else 0 } }
  let n : State := { State.reset with
    pending := s.pending, free := s.free, nextRid := s.nextRid, regs := s.regs.filter fun x => coldKeeps k x.1
    tickno := if aon then s.tickno else 0, sys := y
    ctxT := if log then s.ctxT.map keepReturning else State.reset.ctxT
    shpT := if log then s.shpT.map keepReturning else State.reset.shpT
    log := if log then s.log else [], recent := if log then s.recent else [], suppr := if log then s.suppr else []
    spi := if aon then s.spi else .reset, i2c := if aon then s.i2c else .reset, tenon := if aon then s.tenon else .reset }
  let n := (n.wr (PWR.DOM_STATE 93) 1).wr (PWR.CLK_STATE 41) 1
  let n := n.wr RST.FLAGS (n.rd RST.FLAGS &&& (if aon then 0xFC else 0xEC))
  n.wr OBS.FAULT_STAT ((n.rd OBS.FAULT_STAT &&& 0x18) + y.thermShut.toNat)

/-! ### The health record (R425 to R428) -/

/-- A string of 66 bits as nine bytes. -/
def State.str66 (s : State) (a : Nat × Nat) : List Byte := le 9 (s.rd a.1 + 2 ^ 64 * s.rd a.2)
def State.putStr66 (s : State) (a : Nat × Nat) (v : Nat) : State := (s.wr a.1 (v % 2 ^ 64)).wr a.2 (v / 2 ^ 64 % 4)

/-- The body of the health record (Table 15-11). -/
def State.healthBody (s : State) : List Byte :=
  [byteOf (s.rd RST.PAIR_USABLE)] ++ List.replicate 7 0 ++ le 8 (s.rd RST.ST_TICKNO) ++
  (List.range 8).flatMap (fun n => s.str66 (sliceHealth n) ++ s.str66 (healthAddr .ctx n) ++ s.str66 (healthAddr .shp n) ++
    le 5 (s.rd (FEC.EVAL_HEALTH n)) ++ [byteOf (s.rd (LTX.SUBDAC_HEALTH n))] ++ List.replicate 7 0 ++
    (s.rdList (CTX.REMAP n 0) 8).flatMap (le 4)) ++
  le 4 (s.rd (RST.SIMD_HEALTH 0)) ++ le 4 (s.rd (RST.SIMD_HEALTH 1)) ++ List.replicate 424 0

/-- Take a health record over. -/
def State.useHealth (s : State) (b : List Byte) : State :=
  let s := (s.wr RST.PAIR_USABLE (getLe b 0 1)).wr RST.ST_TICKNO (getLe b 8 8)
  let s := (List.range 8).foldl (fun s n =>
    let o := 16 + 72 * n
    let s := ((s.putStr66 (sliceHealth n) (getLe b o 9)).putStr66 (healthAddr .ctx n) (getLe b (o + 9) 9)).putStr66
      (healthAddr .shp n) (getLe b (o + 18) 9)
    let s := (s.wr (FEC.EVAL_HEALTH n) (getLe b (o + 27) 5)).wr (LTX.SUBDAC_HEALTH n) (getLe b (o + 32) 1)
    s.wrList (CTX.REMAP n 0) ((List.range 8).map fun k => getLe b (o + 40 + 4 * k) 4)) s
  (s.wr (RST.SIMD_HEALTH 0) (getLe b 592 4)).wr (RST.SIMD_HEALTH 1) (getLe b 596 4)

/-- The record that assumes every unit usable. -/
def State.healthDefault (s : State) : State :=
  let s := { s with regs := s.regs.filter fun x => !(isHealth x.1 && decide (blkOf x.1 ≠ 0x51)) }
  let s := (((s.wr RST.PAIR_USABLE 15).wr (RST.SIMD_HEALTH 0) 0xFFFFFFFF).wr (RST.SIMD_HEALTH 1) 0xFFFFFFFF).wr RST.ST_TICKNO 0
  (s.wrBit RST.FLAGS 2 true).logEv { level := 4, code := 0x5108 }

/-- The record chosen at step 5 (R425): the always-on copy where its CRC is good, else the newest flash copy; where both
are valid, the one with the higher SEQ. With BOOT_SRC 1 the flash holds none. -/
def State.chooseHealth (s : State) (aonOk : Bool) : State :=
  let fl := if s.noFlash then none else s.newest imgHealth
  match fl with
  | some (c, q) =>
    if aonOk ∧ q ≤ s.rd RST.HLTH_SEQ then s
    else (s.useHealth (imgBody (s.copyImg imgHealth c))).wr RST.HLTH_SEQ q
  | none => if aonOk then s else s.healthDefault

/-- The map a list of 66 units gives: the lowest-numbered usable ones, then the unusable ones (R119, R428). -/
def mapFrom (ok : Nat → Bool) : List Nat := (((List.range 66).filter ok) ++ (List.range 66).filter fun i => !ok i).take 64

/-- The replicas a start maps: usable ones, those whose health bit has just come back only where 64 cannot be had without
them (R119, R139). -/
def State.mapReplicas (s : State) (n : Nat) (t : Tbl) : Nat → Bool :=
  let old := fun r => s.replUsable n t r && !(s.tbl n t).returning.contains r
  if ((List.range 66).filter old).length < 64 then s.replUsable n t else old

/-- Slices, replicas and evaluators of a lane are mapped from the health bits (R119, R428). -/
def State.mapLane (s : State) (n : Nat) : State :=
  let few := fun (ok : Nat → Bool) => decide (((List.range 66).filter ok).length < 64)
  let ok := fun i => s.bit66 (sliceHealth n) i
  let s := s.wrList (LRX.SLICE_MAP n 0) (mapFrom ok)
  let s := if few ok then
      ((s.wrBit (LRX.FLAGS n) 5 true).modRx n fun r => { r with degSpare := true }).rxDegraded n |>.lineLog n 0x1009 0 true
    else s
  let s := [Tbl.ctx, Tbl.shp].foldl (fun s t =>
    let ok := s.mapReplicas n t
    let s := s.wrList (mapAddr t n 0) (mapFrom ok)
    let s := s.modTbl n t fun m => { m with returning := m.returning.filter fun r => !s.replServes n t r }
    let s := s.putStr66 (readyAddr t n) 0
    if few ok then s.spareOut n t else s) s
  let s := s.wrBit (CTX.FLAGS n) 4 (decide (s.remapsUsed n = 8))
  let en := (List.range 16).filter fun p => decide (bits (s.rd (FEC.SCHED n p)) 7 7 = 1)
  let us := (List.range 34).filter fun e => s.bit (FEC.EVAL_HEALTH n) e
  let k := min en.length (us.length / 2)
  let served := en.take k
  let s := s.wrList (FEC.EVAL_MAP n 0) (List.replicate 32 0x3F)
  let s := (List.range k).foldl (fun s i =>
    (s.wr (FEC.EVAL_MAP n (served.getD i 0)) (us.getD i 0)).wr (FEC.EVAL_MAP n (16 + served.getD i 0)) (us.getD (k + i) 0)) s
  let s := (s.wr (FEC.SCHED_SERVED n) k).modRx n fun r => { r with removed := en.drop k, degDec := decide (k < en.length) }
  (s.wrBit (FEC.FLAGS n) 4 (decide (k < en.length))).rxDegraded n

/-- The serving controller and Joiners (R427): bit 0 SERVING, bit 1 SERVES_BOTH of JNR.FLAGS. A serving Joiner is RUN, one
held idle IDLE (R201). -/
def State.choosePair (s : State) : State :=
  let s := s.wr DEV.SERVING_DIE (if s.bit RST.PAIR_USABLE 0 then 0 else 1)
  [0, 1].foldl (fun s d =>
    let serves := (s.joinerUsable d) && (decide (s.servJ 0 = d) || decide (s.servJ 1 = d))
    let s := (s.wrBit (JNR.FLAGS d) 0 serves).wrBit (JNR.FLAGS d) 1 (serves && decide (s.servJ 0 = d ∧ s.servJ 1 = d))
    if serves then ((s.wr (PWR.DOM_STATE (80 + d)) 1).wr (JNR.STATE d) 2)
    else (s.wr (JNR.STATE d) (if s.joinerUsable d then 1 else 0)).wr (PWR.DOM_STATE (80 + d)) 0) s

/-- The header of a health-record image (Table 15-6); VERSION and STEPPING_MIN are 0. -/
def healthHeader : List Byte :=
  let h := le 4 0x49475855 ++ [3, 1, 0xFF, 0] ++ le 4 1024 ++ List.replicate 48 0
  h ++ le 4 (crc32 h).toNat

/-- Write the always-on record to the older flash copy (R426). -/
def State.mirrorHealth (s : State) : State :=
  if s.noFlash then s
  else
    let s := s.wr RST.HLTH_SEQ (max 1 (s.rd RST.HLTH_SEQ))
    let c := match s.newest imgHealth with
      | some (c, _) => 1 - c
      | none => 0
    let s := (s.flashErase imgHealth c).flashPut (copyArea imgHealth c).1 (healthHeader ++ s.healthBody)
    (s.trailerPut imgHealth c (s.rd RST.HLTH_SEQ)).wrBit RST.FLAGS 5 false
/-- Is the always-on record newer than every flash copy (R426)? -/
def State.mirrorOwed (s : State) : Bool :=
  s.bit RST.FLAGS 5 || match s.newest imgHealth with
    | some (_, q) => decide (q < s.rd RST.HLTH_SEQ)
    | none => true

/-! ### AVS (R395) -/

/-- The read-back confirms the target within 15 mV; the reading is a free value there (log 2). -/
def State.avsConfirm (s : State) : State :=
  (s.draw.2.wr PWR.VCORE_MEAS (s.rd PWR.VCORE_TARGET + s.draw.1.toNat % 31 - 15)).modSys fun y => { y with avsOk := true }

/-! ### Cold start (Table 15-3) -/

/-- Step `k` begins: BOOT_STEP reports it. -/
def State.bootStep (s : State) (k : Nat) : State := (s.modPow fun p => { p with cold := k }).wr RST.BOOT_STEP k

/-- A cold start begins with step 1. -/
def State.coldStart (s : State) : State := s.bootStep 1

/-- Step 1 ends: straps are sampled, a reserved code logged, and the trim load begins, with FUSE powered (R412, R436). -/
def State.sampleStraps (s : State) (role src : Nat) : State :=
  let s := (s.modSys fun y => { y with pins := { y.pins with role := role, bootSrc := src } }).setDom 90 1
  let s := (((s.wr DEV.ROLE role).wr DEV.BOOT_SRC src).wr (TEN.EN 0) (decide (role = 2)).toNat).wr (TEN.EN 1)
    (decide (role = 1 ∨ role = 2)).toNat
  let s := if src = 3 then s.logEv { level := 4, code := 0x0106, detail := src } else s
  if role = 3 then s.logEv { level := 4, code := 0x0106, detail := role } else s

/-- The trim shadows are loaded (R407): terminations and detectors of the host side are powered. -/
def State.trimValid (s : State) : State :=
  let s := (s.wrBit RST.FLAGS 0 true).wrBit RST.KEY_STATE 0 true
  (List.range 16).foldl (fun s k => s.setDom (56 + k) 1) s

/-- Domains step 4 powers. -/
def bootDomains : List Nat := [82, 83, 84, 85, 86, 89, 92]

/-- Steps 4 and 5 end: clocks run, management domains are released, FUSE is no longer needed, the pair is chosen and the
boot ROM starts. A device without a usable controller stays at step 5 (R427). -/
def State.bootClocks (s : State) (aonOk : Bool) : State :=
  let s := [36, 37, 38, 39, 40].foldl (fun s i => s.wr (PWR.CLK_STATE i) 1) s
  let s := (bootDomains.foldl (fun s i => s.setDom i 1) s).setDom 90 0
  let s := (List.range 8).foldl (fun s n => s.mapLane n) (s.chooseHealth aonOk)
  let s := s.choosePair
  if !s.bit RST.PAIR_USABLE 0 ∧ !s.bit RST.PAIR_USABLE 2 then
    ((s.bootStep 5).modSys fun y => { y with mcState := 5 }).faultOn 5
  else
    let s := if s.noJoiner then s.faultOn 1 else s
    (s.bootStep 6).modSys fun y => { y with mcState := 1 }

/-- The recovery service starts (R420); the device serves as in IMAGO. -/
def State.recover (s : State) : State :=
  if s.sys.recovery then s
  else ((s.wr PWR.STATE 0).modSys fun y => { y with recovery := true, mcState := 1 }).logOpen { level := 4, irq := true }

/-- Which image of a type a start takes, with its SEQ and the copy (0 link, 1 A, 2 B): from flash, or over the link
(Table 15-4, R458). -/
def State.bootImg (s : State) (ty : Nat) : Option (List Byte × Nat × Nat) :=
  let flash := (s.newest ty).map fun x => (s.copyImg ty x.1, x.2, x.1 + 1)
  let link := (s.streamImg ty).map fun x => (x.1, x.2, 0)
  match s.rd DEV.BOOT_SRC with
  | 1 => link
  | 2 => if s.rd DEV.ROLE = 2 then (match flash with
    | some x => some x
    | none => link) else flash
  | _ => flash

/-- Does this start take images over the link: a rafter with BOOT_SRC 1, or 2 without valid firmware in flash? -/
def State.linkBoot (s : State) : Bool :=
  decide (s.rd DEV.ROLE = 2) && (decide (s.rd DEV.BOOT_SRC = 1) || (decide (s.rd DEV.BOOT_SRC = 2) && (s.newest 0).isNone))

/-- The Tenon ports of the role at a start (Table 16-1): the upstream port of a rafter; the ports the role uses are
enabled by TEN.EN, the others are off. -/
def State.roleUses (s : State) (p : Nat) : Bool :=
  decide ((s.rd DEV.ROLE = 1 ∧ p = 1) ∨ s.rd DEV.ROLE = 2)

/-! ### Housekeeping at a start (R360) -/

/-- The converter and bias domains come up: at a wake every channel is held, and at any other start where TX_DIS or a
thermal shutdown holds it (R357, Table 12-7). -/
def State.hkStart (s : State) (wake : Bool) : State :=
  let s := (s.setDom 87 1).setDom 88 1
  (if wake || s.sys.txDis || s.sys.thermShut then s.biasHolds 0xFFFFFF else s).hkIdle
/-- A sleep entry holds every channel and stops the sequencer (Table 14-6, E1). -/
def State.hkStop (s : State) : State :=
  let s := (s.biasHolds 0xFFFFFF).modHk fun h => { h with start := false, latched := false, pass := none, cal := none }
  s.wr HK.STATE 0
/-- The sequencer and the filters restart (R360). -/
def State.hkRestart (s : State) : State :=
  let s := s.modHk fun h => { h with start := false, latched := false, pass := none }
  (List.range 8).foldl (fun s f => s.filtRestart f) s.hkIdle

/-! ### Lanes held or idled (R385, R424) -/

/-- Up lanes as a mask: line lanes in bits 7 to 0, host lanes in 23 to 8. -/
def State.upMask (s : State) : Nat := maskIf 8 s.lineUp + 256 * maskIf 16 s.hostUp

/-- Every up lane is idled (Table 14-3): receive in HOLD, transmit SQUELCHED, host lanes in HOLD, captures ended. A side
in FAILED stays there; a line lane that was not yet running starts over at the relink. -/
def State.idleLanes (s : State) (name : Option String) : State :=
  let s := s.modSys fun y => { y with lanesIdle := true }
  let s := (List.range 8).foldl (fun s n =>
    if !s.lineUp n then s
    else
      let s := match name with
        | some nm => s.capEndEarly n nm
        | none => s
      let st := s.rd (LRX.STATE n)
      let s := if st = 4 ∨ st = 5 then s else s.rxHold n
      let tx := s.rd (LTX.STATE n)
      let s := if tx = 2 then s.setTxState n 3 else s
      s.modTx n fun t => { t with gated := true }) s
  (List.range 16).foldl (fun s k =>
    let st := s.rd (HRX.STATE k)
    if s.hostUp k ∧ st ≠ 5 ∧ st ≠ 6 then s.hostHold k else s) s

/-- The idled lanes of a mask run again: receive sides relink, transmit sides return to ACTIVE unless held down, host
lanes leave HOLD (R390, R192). A receive side whose calibration is not valid repeats its bring-up (R290, R424). -/
def State.relinkLanes (s : State) (mask why : Nat) : State :=
  let s := s.modSys fun y => { y with lanesIdle := false }
  let s := (List.range 8).foldl (fun s n =>
    if !mask.testBit n ∨ !s.lineUp n then s
    else
      let s := if s.rd (LRX.STATE n) ≠ 4 then s
        else if s.bit (s.rxCalAddr n) n then
          (let los := s.bit (LRX.FLAGS n) 0
           (s.modRx n fun r => { r with holdLos := los }).askRelink n why)
        else (s.modRx n fun r => { r with bringT := s.nowL n, holdLos := false, holdLol := false }).rxStep2 n
      if s.rd (LTX.STATE n) = 3 then s.txOn n
      else if s.rd (LTX.STATE n) = 1 then (s.modTx n fun t => { t with bringT := s.nowL n }).txStep2 n else s) s
  (List.range 16).foldl (fun s k =>
    if mask.testBit (8 + k) ∧ s.rd (HRX.STATE k) = 5 then
      (s.modHost k fun h => { h with holdGo := true, holdLos := false, holdLol := false, holdEbuf := false }).tryHost k
    else s) s

/-- The staged content of every domain is lost (Table 11-5): counted and logged where there was any. -/
def State.loseStaged (s : State) (st : Status) (name : String) : State :=
  [0, 1].foldl (fun s d =>
    let m := s.dom d
    let any := decide (m.staged ≠ [] ∨ m.held ≠ []) || m.bundle.isSome
    let s := s.clearStaged d st name
    if any then (s.inc DEV.STAGED_LOST_CNT).logEv { level := 3, inst := d, code := 0x0103, detail := d } else s) s

end Sys2Proof.Machine
end

