-- ==== Sys2Proof/Machine/PowerOps.lean ====
section
/-!
DEFINITION. Operations of the power states: refusers, entry, wake and the shutdown self-test (R311, R385 to R393, R427 to
R429).
-/

namespace Sys2Proof.Machine

/-! ### Refusers (Table 14-5) -/

/-- Name of a refuser. -/
def refuserName (code : Nat) : String :=
  match code with
  | 0x01 => "PG_CORE"
  | 0x02 => "PG_ANA"
  | 0x03 => "PG_HV"
  | 0x04 => "AVS"
  | 0x05 => "THERMAL"
  | 0x10 => "PLL_RG0_LINE"
  | 0x11 => "PLL_RG0_HOST"
  | 0x12 => "PLL_RG1_LINE"
  | 0x13 => "PLL_RG1_HOST"
  | 0x14 => "PLL_RG2_LINE"
  | 0x15 => "PLL_RG2_HOST"
  | 0x16 => "PLL_RG3_LINE"
  | 0x17 => "PLL_RG3_HOST"
  | 0x18 => "CLK_D0"
  | 0x19 => "CLK_D1"
  | 0x20 => "COMMIT_PEND"
  | 0x21 => "LANE_PENDING"
  | 0x22 => "LONG_OP"
  | 0x23 => "CAL"
  | 0x24 => "TABLE_WRITE"
  | 0x25 => "CAPTURE"
  | 0x26 => "TENON"
  | _ => "SAVE"

/-- The first refuser that keeps the device from entering a state (R388). -/
def State.entryRefuser (s : State) (dest : Nat) : Option Nat :=
  let cal := (List.range 8).any fun n =>
    decide (s.rd (LRX.STATE n) = 1 ∨ s.rd (LTX.STATE n) = 1) || (s.rxL n).bgCal.isSome
  let cap := (List.range 8).any fun n => decide (s.rd (OBS.CAP_STATE n) = 1 ∨ s.rd (OBS.CAP_STATE n) = 2)
  if s.doms.any (fun d => d.commit.isSome) ∨ s.unit.isSome then some 0x20
  else if s.lanes ≠ [] then some 0x21
  else if s.longOps ≠ [] then some 0x22
  else if cal then some 0x23
  else if dest = 1 then none
  else if s.loads.any fun l => decide (l.phase = LoadPhase.between) then some 0x24
  else if cap then some 0x25
  else if s.portUp 1 ∧ !s.bit (TEN.FLAGS 1) 5 then some 0x26
  else none

/-- A refuser is counted and logged at package level. -/
def State.refuserHits (s : State) (code : Nat) (irq : Bool) : State :=
  (s.inc (PWR.REFUSE_CNT code)).logEv { level := 4, irq := irq, code := 0x5001, detail := code }

/-! ### Domains and clocks in the sleep states (Tables 14-1 and 14-2) -/

/-- DOM_STATE of a domain in CHRYSALIS or DIAPAUSE. -/
def State.sleepDom (s : State) (dest i : Nat) : Nat :=
  let keep := fun (n bit : Nat) => decide (dest = 2 ∧ s.rd (PWR.DOM_STATE i) ≠ 0) && (s.rd (CTX.RETAIN n)).testBit bit
  let wl := s.rd PWR.WAKE_LANES
  if i = 93 then 1
  else if dest ≠ 2 then 0
  else if 24 ≤ i ∧ i < 32 then (if keep (i - 24) 0 then 2 else 0)
  else if 32 ≤ i ∧ i < 40 then (if keep (i - 32) 1 then 2 else 0)
  else if 56 ≤ i ∧ i < 72 then
    (if wl.testBit (8 + (i - 56)) && s.bit PWR.WAKE_HOST_MASK (i - 56) && s.sys.power.mask.testBit 1 then 1 else 0)
  else if i = 80 ∨ i = 81 then (if s.rd (PWR.DOM_STATE i) ≠ 0 then 2 else 0)
  else if i = 86 then 2
  else if i = 94 then (if s.sys.power.mask.testBit 2 ∧ s.rd DEV.ROLE = 2 then 1 else 0)
  else 0

/-- Clocks, PLLs and every domain that is not retained stop (Table 14-6, E4). -/
def State.powerDown (s : State) (dest : Nat) : State :=
  let doms := (List.range 96).map (s.sleepDom dest)
  let s := (s.portOff 0 (decide (dest = 2 ∧ s.sys.power.mask.testBit 2 ∧ s.rd DEV.ROLE = 2))).portOff 1
  let s := s.wrList (PWR.DOM_STATE 0) doms
  let s := s.clearTick.wrList (PWR.CLK_STATE 0) (List.replicate 40 0)
  let s := (s.wrList (JNR.STATE 0) [0]).wr (JNR.STATE 1) 0
  let s := s.modSys fun y => { y with
    plls := List.replicate 8 .reset, resetting := [], mcState := 0, therm := { y.therm with sampled := [] } }
  s.modJn 0 Joiner.cut |>.modJn 1 Joiner.cut

/-! ### Entry (R389) -/

/-- The device is in a sleep state from now on. -/
def State.asleep (s : State) (dest : Nat) : State := (s.wr PWR.STATE dest).inc (PWR.ENTRY_CNT (dest - 1))

/-- An entry abandoned at E2 or E3: the device goes on in IMAGO, the bias channels held until released. -/
def State.entryAbandon (s : State) (code : Nat) : State :=
  let s := ((s.refuserHits code true).wr PWR.STATE 0).modPow fun p => { p with entry := 0, early := false }
  s.hkRestart.relinkLanes (s.rd PWR.WAKE_LANES) 3

/-- E4 and E5: clocks stop, and the retention voltage is asked for. -/
def State.entryStop (s : State) : State :=
  let dest := s.sys.power.entryTo
  ((s.powerDown dest).asleep dest).avsAsk (some (600 + 5 * s.rd PWR.RET_VCORE)) |>.modPow fun p => { p with entry := 5 }

/-- E1 of an entry (R360, R389, R461). -/
def State.entryBegin (s : State) (q : SleepReq) : State :=
  let s := (s.wr PWR.WAKE_LANES s.upMask).modPow fun p => { p with
    sleep := none, entryTo := q.state, mask := q.mask, selfTest := q.selfTest, early := false, tries := 0, waiting := false }
  let s := (s.idleLanes (some "LANE_IDLE")).wrBit PWR.FLAGS 3 false
  if q.state = 1 then s.asleep 1
  else
    let s := (s.sendBlock 0 (block 0x99 [s.tenAddr, q.state])).hkStop
    (s.loseStaged .denied "DISCARDED").modPow fun p => { p with entry := 2 }

/-- Has every window of the table controllers closed (E2)? -/
def State.drained (s : State) : Bool :=
  (List.range 8).all fun n => [Tbl.ctx, Tbl.shp].all fun t =>
    (s.tbl n t).window.isNone && (s.tbl n t).write.isNone && (s.tbl n t).armed.isNone

/-! ### Self-test (R429) -/

/-- Slices of Table 15-12: 40 of line lanes, two of SIMD lanes, two of data memories, two of SRAM. -/
def lastSlice : Nat := 45

/-- A self-test starts: tables and Joiner memories lose their contents, and are filled again when next powered. -/
def State.testStart (s : State) (ref : Option ReqRef) : State :=
  let s := ((s.wr RST.ST_TESTED 0).wr RST.ST_FAILED 0).wr RST.ST_SKIPPED 0
  let s := (List.range 8).foldl (fun s n => (s.modTbl n .ctx fun _ => .reset).modTbl n .shp fun _ => .reset) s
  let s := s.modJn 0 (fun j => { j with dm := [] }) |>.modJn 1 fun j => { j with dm := [] }
  s.modSys fun y => { y with selfTest := some ⟨0, ref⟩ }

/-- The test has ended: TICKNO of completion, the mirror, and the SHUTDOWN or the entry it belongs to goes on. -/
def State.testEnd (s : State) : State :=
  let ref := match s.sys.selfTest with
    | some t => t.ref
    | none => none
  let s := ((s.wr RST.ST_TICKNO s.tickno).healthChg).mirrorHealth
  let s := s.modSys fun y => { y with selfTest := none }
  match ref with
  | some r =>
    ((s.modSys fun y => { y with mcState := 6 }).ok r (le 2 (s.rd RST.ST_TESTED) ++ le 2 (s.rd RST.ST_FAILED))).endOp r.rid
  | none => s.entryStop

/-! ### Wake (R391 to R393) -/

/-- A wake ends without reaching IMAGO, its retries exhausted (R311, R392). -/
def State.wakeGivesUp (s : State) (code : Nat) : State :=
  let refs := s.sys.power.refs
  let s := (s.wrBit PWR.FLAGS 4 false).modPow fun p => { p with wake := 0, cold := 0, tries := 0, waiting := false, refs := [] }
  refs.foldl (fun s r => s.refuse r .timeout (refuserName code)) s

/-- A wake attempt aborts: counted, logged, and retried after WAKE_RETRY_MS while retries are left. -/
def State.wakeAbort (s : State) (code : Nat) : State :=
  let dest := s.rd PWR.STATE
  let cold := decide (s.sys.power.cold ≠ 0)
  let s := ((s.inc (PWR.REFUSE_CNT code)).inc PWR.WAKE_ABORT_CNT).logEv { level := 4, irq := true, code := 0x5002, detail := code }
  let s := (s.powerDown (if cold then 3 else dest)).avsAsk (some (600 + 5 * s.rd PWR.RET_VCORE))
  let s := if cold then s.wr PWR.STATE 3 else s
  if s.sys.power.tries < s.rd PWR.WAKE_RETRIES then
    (s.wrBit PWR.FLAGS 4 true).modPow fun p => { p with tries := p.tries + 1, waiting := true }
  else (s.modPow fun p => { p with mask := if cold then 0x18 else p.mask }).wakeGivesUp code

/-- S7 forbids a wake (R376). -/
def State.tooHot (s : State) : Bool := decide (s.sys.therm.s7 ≥ s.thr THM.SHUT_THR - s.hyst)

/-- An attempt begins: the THERMAL check and the AVS request of W1, or a cold start that is tried again: from its step 3,
or from its beginning where the trims are not yet loaded. -/
def State.wakeTry (s : State) : State :=
  if s.tooHot then s.wakeAbort 5
  else if s.sys.power.cold ≠ 0 then (if s.bit RST.FLAGS 0 then (s.bootStep 3).avsAsk none else s.coldStart)
  else (s.avsAsk none).modPow fun p => { p with wake := 1 }

/-- A wake source (bit of PWR.WAKE_SRC) is recognised (R391). -/
def State.wakeSource (s : State) (bit : Nat) : State :=
  let p := s.sys.power
  let st := s.rd PWR.STATE
  if p.entry ≠ 0 then (s.wr PWR.WAKE_SRC (if p.early then setBit (s.rd PWR.WAKE_SRC) bit true else 2 ^ bit)).modPow fun p =>
    { p with early := true }
  else if p.wake ≠ 0 ∨ p.cold ≠ 0 then (if p.cold ≠ 0 ∧ !p.fromSleep then s else s.wrBit PWR.WAKE_SRC bit true)
  else if st = 0 then s
  else
    let s := s.wr PWR.WAKE_SRC (2 ^ bit)
    if st = 1 then s.modPow fun p => { p with wake := 7 }
    else if st = 2 then s.wakeTry
    else if s.tooHot then (s.coldReset .wake).coldStart.wakeAbort 5
    else (s.coldReset .wake).coldStart

/-- A sleep entry is complete; a wake source recognised meanwhile starts the wake at once (Table 14-9). -/
def State.entryEnd (s : State) : State :=
  let p := s.sys.power
  let src := s.rd PWR.WAKE_SRC
  let s := s.modPow fun p => { p with entry := 0, early := false }
  if p.early then ((s.wakeSource 0).wr PWR.WAKE_SRC src) else s

/-- Each table domain at W6 (R140): both banks of a retained one are swept once; another is filled, and its banks with the
spare rows of their remapped addresses are written from the master copy and verified before service (log 176). -/
def State.wakeTable (s : State) (n : Nat) (t : Tbl) : State :=
  let m := s.tbl n t
  if !m.powered then s
  else if s.rd (PWR.DOM_STATE (24 + 8 * t.ix + n)) = 2 then
    let s := s.wr (PWR.DOM_STATE (24 + 8 * t.ix + n)) 1
    let hit := m.upsets.filterMap fun u => (s.upsetAddr n t u).map fun a => (u.bank, u.repl, a)
    let s := hit.eraseDups.foldl (fun s x => s.report n t x.1 x.2.1 x.2.2 (s.readRepl n t x.1 x.2.1 x.2.2)) s
    s.sweepDone n t
  else
    let set := s.masterSet n t
    let st := m.active
    let s := (s.modTbl n t fun m => { m with powered := false }).powerTable n t
    let rows := s.rowsWritten n t 0 set ++ s.rowsWritten n t 1 set
    (s.modTbl n t fun m => { m with bank0 := set, bank1 := set, active := st, shadow := st, spares := rows }).showStamp n t st

/-- W3 ends: management, Joiner, bridge, thermal and housekeeping domains are powered, and the Tenon ports in use leave
listen mode or power up (R453). -/
def State.wakeDomains (s : State) : State :=
  let s := [36, 37, 38, 39, 40].foldl (fun s i => s.wr (PWR.CLK_STATE i) 1) s
  let s := (bootDomains.foldl (fun s i => s.setDom i 1) s).hkStart true
  [0, 1].foldl (fun s p => if s.rd (TEN.EN p) = 1 ∧ s.roleUses p then s.portEnable p true else s) s

/-- Regions with a lane of a mask. -/
def regionsOf (mask : Nat) : List Nat :=
  (List.range 4).filter fun r => mask.testBit (2 * r) || mask.testBit (2 * r + 1) || (List.range 4).any fun j => mask.testBit (8 + 4 * r + j)

/-- W5 (R205): the Joiners are ready; where DM1 was not retained the lane windows are cleared and every slot's next run is
its first (R210). A Joiner held idle reports IDLE (R201). -/
def State.wakeJoiners (s : State) : State :=
  [0, 1].foldl (fun s d =>
    if s.serving.contains d then
      (let keep := decide (s.rd (JNR.DM1_RETAIN d) = 1)
       let first := (s.jn d).slots.map (·.first)
       let s := s.modJn d fun j => if keep then j else { j with dm := j.dm.filter fun x => decide (x.1 < 0x40000) }
       let s := (s.joinerResume d false).wr (PWR.DOM_STATE (80 + d)) 1
       if keep then s.modJn d fun j => { j with slots := (j.slots.zip first).map fun x => { x.1 with first := x.2 } } else s)
    else if s.joinerUsable d then s.wr (JNR.STATE d) 1
    else s) s

/-- The clusters of WAKE_LANES are powered with their regions; their spare slices and evaluators start fresh shadow cycles
(R55, R157). -/
def State.wakeClusters (s : State) (mask : Nat) : State :=
  let on := fun (s : State) (l : List Nat) => l.foldl (fun s i => s.setDom i 1) s
  let s := (List.range 8).foldl (fun s n =>
    if mask.testBit n then
      (let s := ((on s [3 * n, 3 * n + 1, 3 * n + 2]).wr (PWR.CLK_STATE n) 1).wr (PWR.CLK_STATE (8 + n)) 1
       (s.idleEvals n).foldl (fun s e => s.evalSpare n e) (s.modRx n fun r => { r with sliceCycle := s.nowL n }))
    else s) s
  let s := (List.range 16).foldl (fun s k =>
    if mask.testBit (8 + k) then (s.setDom (40 + k) 1).wr (PWR.CLK_STATE (16 + k)) 1 else s) s
  (regionsOf mask).foldl (fun s r => (s.setDom (72 + r) 1).wr (PWR.CLK_STATE (32 + r)) 1) s

/-- Must a rafter wait for its join before its lanes run (R453)? -/
def State.mustJoin (s : State) : Bool := decide (s.rd DEV.ROLE = 2 ∧ s.rd (TEN.EN 0) = 1) && !s.joined

/-- A wake reaches IMAGO (R393): counted, logged and answered; the lanes of WAKE_LANES relink, a rafter's after its join. -/
def State.wakeDone (s : State) (us : Nat) : State :=
  let p := s.sys.power
  let mask := s.rd PWR.WAKE_LANES
  let s := (((s.wr PWR.STATE 0).inc PWR.WAKE_CNT).wr PWR.LAST_WAKE_US us).logEv { level := 4, code := 0x5003, detail := us }
  let s := (s.wrBit PWR.FLAGS 4 false).serveNow.modSys fun y => { y with
    power := { y.power with wake := 0, tries := 0, waiting := false, refs := [], serveT := s.tickno } }
  let s := p.refs.foldl (fun s r => s.ok r [0, byteOf p.tries]) s
  if s.mustJoin ∧ mask ≠ 0 then s.modTen fun t => { t with join := some (mask % 256, mask / 256, true) }
  else s.relinkLanes mask 3

/-! ### Services -/

/-- SLEEP (R311, R387, R388). -/
def svcSleep : Service := fun r ps s =>
  let us := getLe ps 0 4
  let mask := getLe ps 4 2
  let dest := if 1500000 ≤ us then 3 else if 30000 ≤ us then 2 else 1
  if !okLen ps [8] then s.bad r .badLength
  else if 32 ≤ mask ∨ 1 < getLe ps 6 1 ∨ getLe ps 7 1 ≠ 0 then s.bad r .badAddress
  else if us < 50 then s.refuse r .precondition "LATENCY"
  else
    let mask := if dest = 3 then mask &&& 0x18 else mask
    if mask = 0 then s.refuse r .precondition "NO_WAKE"
    else if s.sys.power.sleep.isSome then s.refuse r .busy "LONG_OP"
    else match s.entryRefuser dest with
      | some c => (s.refuserHits c false).refuse r .busy (refuserName c)
      | none =>
        ((s.modPow fun p => { p with
          sleep := some ⟨dest, mask, decide (getLe ps 6 1 = 1), addTicks s.tickno (s.msTicks 1), r⟩ }).accepted r [byteOf dest]).ok r []

/-- WAKE (R303, R311). -/
def svcWake : Service := fun r ps s =>
  if ps ≠ [] then s.bad r .badLength
  else if s.rd PWR.STATE = 0 ∧ s.sys.power.wake = 0 ∧ s.sys.power.entry = 0 then s.ok r [0, 0]
  else ((s.modPow fun p => { p with refs := p.refs ++ [r] }).accepted r []).wakeSource 4

/-- SHUTDOWN (R312, R429). -/
def svcShutdown : Service := fun r ps s =>
  let target := getLe ps 4 8
  let t := if target = 0 then s.earliest [0, 1] else target
  if !okLen ps [12] then s.bad r .badLength
  else if 1 < getLe ps 0 1 ∨ getLe ps 1 3 ≠ 0 ∨ 2 ^ 48 ≤ target then s.bad r .badAddress
  else if s.sys.power.shutdown.isSome then s.refuse r .busy "LONG_OP"
  else if !s.leadOk t then s.refuse r .precondition "LEAD"
  else
    let s := { s with lanes := s.lanes ++ [LaneReq.mk false 0xFF 0xFFFF t none] }
    ((s.modPow fun p => { p with shutdown := some (t, decide (getLe ps 0 1 = 1), r) }).accepted r []).startOp r 0

/-- Once every lane is down, a SHUTDOWN runs its self-test or is complete. -/
def State.shutCheck (s : State) : State :=
  match s.sys.power.shutdown with
  | none => s
  | some (t, test, r) =>
    if !reached s.tickno t ∨ s.upMask ≠ 0 then s
    else
      let s := s.modPow fun p => { p with shutdown := none }
      if test then s.testStart (some r)
      else ((s.modSys fun y => { y with mcState := 6 }).ok r [0, 0, 0, 0]).endOp r.rid

/-- LANE_UP_EFFECT (R79, R111, R196): after a warm reset the device's own request lets the held lanes of WARM_LANES relink
(R424). -/
def execLaneUpEffect (s : State) : Result := finish s <|
  let warm := s.sys.lanesIdle && decide (s.rd PWR.STATE = 0) && s.lanes.any fun q => q.up && q.ref.isNone && s.laneDue q
  .next ((if warm then s.relinkLanes (s.rd RST.WARM_LANES) 4 else s).laneEffects true)

/-- LANE_DOWN_EFFECT (R110, R312). -/
def execLaneDownEffect (s : State) : Result := finish s <| .next (s.laneEffects false).shutCheck

end Sys2Proof.Machine
end

