-- ==== Sys2Proof/Machine/Power.lean ====
section
/-!
DEFINITION. Power commands: entry, wake sources, wake steps, AVS, supplies and the reference clock (R389 to R399, R494).
-/

namespace Sys2Proof.Machine

/-! ### Entry (Table 14-6) -/

/-- SLEEP_ENTRY (R311, R388, R389): once the OK reply has been read, or 1 ms after it was queued, the entry begins at a
boundary; a refuser that has arisen abandons it. -/
def execSleepEntry (s : State) : Result := finish s <|
  match s.sys.power.sleep with
  | none => .next s
  | some q =>
    let unread := (s.trans q.ref.via).replies.any fun x => decide (x.ref.rid = q.ref.rid)
    if unread ∧ !reached s.tickno q.latest then .next s
    else match s.entryRefuser q.state with
      | some c => .next ((s.refuserHits c true).modPow fun p => { p with sleep := none })
      | none => .next (s.entryBegin q)

/-- What follows the drain: the save, the self-test of R429, or the stop. -/
def State.entryDrained (s : State) : State :=
  let p := s.sys.power
  if p.entryTo = 2 then s.modPow fun p => { p with entry := 3 }
  else if p.selfTest then (s.modPow fun p => { p with entry := 3 }).testStart none
  else s.entryStop

/-- ENTRY_DRAIN_DONE (E2). -/
def execEntryDrainDone (s : State) : Result := finish s <| .next (if s.sys.power.entry = 2 ∧ s.drained then s.entryDrained else s)

/-- ENTRY_DRAIN_TIMEOUT (E2): windows still open after 64 ticks. -/
def execEntryDrainTimeout (s : State) : Result := finish s <|
  .next (if s.sys.power.entry = 2 ∧ !s.drained then s.entryAbandon 0x24 else s)

/-- ENTRY_SAVE_DONE (E3, E4, R334). -/
def execEntrySaveDone (s : State) : Result := finish s <|
  .next (if s.sys.power.entry = 3 ∧ s.sys.selfTest.isNone then s.entryStop else s)

/-- ENTRY_SAVE_TIMEOUT (E3). -/
def execEntrySaveTimeout (s : State) : Result := finish s <|
  .next (if s.sys.power.entry = 3 ∧ s.sys.selfTest.isNone then s.entryAbandon 0x27 else s)

/-- ENTRY_AVS_CONFIRM (E5). -/
def execEntryAvsConfirm (s : State) : Result := finish s <| .next (if s.sys.power.entry = 5 then s.avsConfirm.entryEnd else s)

/-- ENTRY_AVS_TIMEOUT (E5): the entry stands. -/
def execEntryAvsTimeout (s : State) : Result := finish s <|
  .next (if s.sys.power.entry = 5 then ((s.wrBit PWR.FLAGS 3 true).inc (PWR.REFUSE_CNT 4)).entryEnd else s)

/-! ### Wake (R391, R392) -/

/-- WAKE_N_ASSERT (R391): low for 10 µs. -/
def execWakeNAssert (s : State) : Result := finish s <|
  let s := s.modSys fun y => { y with pins := { y.pins with wakeN := false } }
  .next (if s.sys.power.mask.testBit 3 then s.wakeSource 3 else s)

/-- Is a lane watched (R391)? -/
def State.watched (s : State) (host : Bool) (i : Nat) : Bool :=
  if host then (s.rd PWR.WAKE_LANES).testBit (8 + i) && s.bit PWR.WAKE_HOST_MASK i && s.sys.power.mask.testBit 1
  else (s.rd PWR.WAKE_LANES).testBit i && s.bit PWR.WAKE_LINE_MASK i && s.sys.power.mask.testBit 0

/-- SIGNAL_DETECT_WAKE (R391): the detector of a watched lane asserts in INSTAR or CHRYSALIS. -/
def execSignalDetectWake (host : Bool) (i : Fin 16) (s : State) : Result := finish s <|
  let st := s.rd PWR.STATE
  .next (if s.watched host i.val ∧ (s.sys.power.entry ≠ 0 ∨ st = 1 ∨ st = 2) then s.wakeSource host.toNat else s)

/-- Has a sample of each die completed since the thermal domain was powered (R376)? -/
def State.bothSampled (s : State) : Bool := s.sys.therm.sampled.contains 0 && s.sys.therm.sampled.contains 1

/-- WAKE_STEP_DONE (Table 14-7, R334, R376, R390): the step in progress ends. `saved` says whether the saved record of W5
is good, `us` the time since W0 that W7 records. -/
def execWakeStepDone (saved : Bool) (us : BitVec 32) (s : State) : Result := finish s <|
  let p := s.sys.power
  let go := fun (s : State) (k : Nat) => s.modPow fun p => { p with wake := k }
  if p.waiting then .next s
  else match p.wake with
    | 1 => .next (go (s.avsConfirm.modSys fun y => { y with pins := { y.pins with pgCore := true } }) 2)
    | 2 =>
      let s := s.modSys fun y => { y with pins := { y.pins with pgAna := true, pgHv := true } }
      .next (go ((s.wr (PWR.CLK_STATE 36) 2).wr (PWR.CLK_STATE 37) 2) 3)
    | 3 =>
      let s := (regionsOf (s.rd PWR.WAKE_LANES)).foldl (fun s r =>
        (((s.setDom (76 + r) 1).modPll (2 * r) fun q => { q with relocking := true }).modPll (2 * r + 1)
          fun q => { q with relocking := true })) s.wakeDomains
      .next (go s 4)
    | 4 =>
      let s := (regionsOf (s.rd PWR.WAKE_LANES)).foldl (fun s r =>
        (s.modPll (2 * r) fun _ => { Pll.reset with locked := true }).modPll (2 * r + 1) fun _ => { Pll.reset with locked := true }) s
      .next (go s 5)
    | 5 =>
      if saved ∧ !s.bothSampled then .next s
      else if saved then .next (go s.wakeJoiners 6)
      else .next ((((s.modPow fun p => { p with wake := 0 }).coldReset .wake).logOpen { level := 4 }).coldStart)
    | 6 =>
      let s := s.wakeClusters (s.rd PWR.WAKE_LANES)
      let s := (List.range 8).foldl (fun s n => (s.wakeTable n .ctx).wakeTable n .shp) s
      let s := (List.range 8).foldl (fun s n => (s.modCap n fun _ => .reset).wrList (OBS.CAP_STATE n) [0]) s
      .next (go s 7)
    | 7 => .next (s.wakeDone us.toNat)
    | _ => .next s

/-- The refuser of a wait of Table 14-7 or Table 15-3 that times out; `which` says for which of its conditions. -/
def waitRefuser (cold : Bool) (step which : Nat) : Option Nat :=
  match cold, step with
  | false, 1 => some (if which = 0 then 1 else 4)
  | false, 2 => some (if which = 0 then 2 else 3)
  | false, 3 => some (0x18 + which % 2)
  | false, 4 => some (0x10 + which)
  | true, 3 => some (1 + which % 4)
  | true, 4 => some (0x18 + which % 2)
  | _, _ => none

/-- WAKE_STEP_TIMEOUT (R392). -/
def execWakeStepTimeout (which : Fin 8) (s : State) : Result := finish s <|
  let p := s.sys.power
  if p.waiting then .next s
  else if p.wake = 4 ∧ !(regionsOf (s.rd PWR.WAKE_LANES)).contains (which.val / 2) then .next s
  else match waitRefuser false p.wake which.val with
    | some c => .next (s.wakeAbort c)
    | none => .next s

/-- WAKE_RETRY (R392, R410): WAKE_RETRY_MS has passed. -/
def execWakeRetry (s : State) : Result := finish s <|
  .next (if s.sys.power.waiting then (s.modPow fun p => { p with waiting := false }).wakeTry else s)

/-! ### Sensor samples -/

/-- Is a wake under way that a thermal shutdown aborts (Tables 14-5 and 14-9)? -/
def State.waking (s : State) : Bool :=
  let p := s.sys.power
  !p.waiting && (decide (p.wake ≠ 0 ∧ s.rd PWR.STATE = 2) || (decide (p.cold ≠ 0) && p.fromSleep))

/-- THERMAL_SAMPLE (R367, R377): the eight sensors of a die, 0.25 °C; a shutdown aborts a wake in progress. -/
def execThermalSample (d : Die) (temps : List (BitVec 16)) (s : State) : Result := finish s <|
  if temps.length ≠ 8 then .refused (.illFormed "THERMAL_SAMPLE")
  else if !s.thermOn then .next s
  else
    let s := s.modTherm fun h => { h with sampled := if h.sampled.contains d.val then h.sampled else h.sampled ++ [d.val] }
    let s := s.wrList (THM.SENSOR (8 * d.val)) (temps.map BitVec.toNat)
    let s := s.judgeSensors d.val
    let rs := [2 * d.val, 2 * d.val + 1]
    let s := (rs.foldl State.regionSample s).trimRefs d.val
    let s := match hottest ((s.working (dieSensors 0 ++ dieSensors 1)).map s.sensor) with
      | some t =>
        let s := s.wr THM.TJ_MAX (enc 16 t)
        if s.rdS THM.TJ_PEAK < t then s.wr THM.TJ_PEAK (enc 16 t) else s
      | none => s
    let s := if s.working (dieSensors d.val) = [] then s.faultOn 0 else s
    let s := s.shutStep d.val
    let s := rs.foldl (fun s r => (s.warnStep r).askStep r) s
    let s := s.thermFlags.wr (THM.PERIOD d.val) (s.period d.val)
    let t : State := if s.sys.thermShut && s.waking then s.wakeAbort 5 else s
    .next t

/-! ### AVS (R395) -/

/-- AVS_READBACK (R395): `mv` is the voltage read, `agree` whether it was acknowledged and lies within 20 mV of inputs 19
and 20. -/
def execAvsReadback (mv : BitVec 16) (agree : Bool) (s : State) : Result := finish s <|
  let s := s.wr PWR.VCORE_MEAS mv.toNat
  .next (if agree then s.modSys fun y => { y with avsOk := true }
    else
      let s := ((s.wrBit PWR.FLAGS 2 true).inc PWR.AVS_FAULT_CNT).modSys fun y => { y with avsOk := false }
      (s.faultOn 4).logOpen { level := 4, fault := true })

/-- AVS_TEMP_STEP (R395): one step of 5 mV within 600 mV to 780 mV. -/
def execAvsTempStep (up : Bool) (s : State) : Result := finish s <|
  let t := s.rd PWR.VCORE_TARGET
  let v := if up then t + 5 else t - 5
  .next (if s.rd PWR.STATE < 2 ∧ 600 ≤ v ∧ v ≤ 780 then s.avsAsk (some v) else s)

/-! ### Supplies (R397 to R399) -/

/-- VAON_MAIN_LOSS (R397, R398): the last gasp, and the switch-over where the backup supply can take over. -/
def execVaonMainLoss (bkup : Bool) (s : State) : Result := finish s <|
  if !s.sys.pins.vaonMain then .next s
  else
    let s := s.modSys fun y => { y with pins := { y.pins with vaonMain := false, vaonBkup := bkup } }
    let s := (s.wr PWR.MAIN_LOSS_TICKNO s.tickno).wrBit PWR.FLAGS 1 true
    let s := s.logEv { level := 4, code := 0x5004, detail := s.rd DEV.CFG_GEN0
                       data := [byteOf (s.rd PWR.STATE)] ++ le 2 (s.rd THM.TJ_MAX) ++ [s.statusBlock.getD 11 0] }
    .next (if bkup then ((s.wrBit PWR.FLAGS 0 true).inc PWR.SWITCH_CNT).logEv { level := 4, code := 0x5005 } else s)

/-- VAON_MAIN_RETURN (R397): good for 10 ms. -/
def execVaonMainReturn (s : State) : Result := finish s <|
  .next ((s.modSys fun y => { y with pins := { y.pins with vaonMain := true } }).wrBit PWR.FLAGS 0 false)

/-- Levels of the power-good inputs: 0 PG_CORE, 1 PG_ANA, 2 PG_HV. -/
def Pins.setPg (p : Pins) (i : Nat) (b : Bool) : Pins :=
  if i = 0 then { p with pgCore := b } else if i = 1 then { p with pgAna := b } else { p with pgHv := b }

/-- A supply fault is recorded (R399). -/
def State.supplyFault (s : State) : State :=
  (((s.inc PWR.SUPPLY_FAULT_CNT).wrBit PWR.FLAGS 5 true).faultOn 4).logEv { level := 4, fault := true, code := 0x5006 }

/-- Every domain except AON is off, and what it held is lost; requests in the transports end without a reply. -/
def State.allOff (s : State) : State :=
  let s := (s.biasHolds 0xFFFFFF).powerDown 3
  { s.modPow (fun p => { p with entry := 0, wake := 0, cold := 0, sleep := none, waiting := false, refs := [], supplyOff := true }) with
    spi := .reset, i2c := .reset, tenon := .reset }

/-- POWER_GOOD_LOSS (R386, R399): without PG_CORE a device in CHRYSALIS goes to DIAPAUSE, and a wake that waits for its
retry becomes a cold start. -/
def execPowerGoodLoss (pg : Fin 3) (s : State) : Result := finish s <|
  let i := pg.val
  let st := s.rd PWR.STATE
  let s := s.modSys fun y => { y with pins := y.pins.setPg i false }
  let s' := s.supplyFault
  if s.sys.power.supplyOff then .next s
  else if st < 2 then
    (if s.sys.power.cold ≠ 0 ∧ s.sys.power.cold < 4 then .next s
    else if i = 2 then .next ((s'.biasHolds 0xFFFFFF).setDom 88 0)
    else .next s'.allOff)
  else if st = 2 ∧ i = 0 ∧ (s.sys.power.wake = 0 ∨ s.sys.power.waiting) then
    (let s' := (s'.wrBit PWR.FLAGS 6 true).powerDown 3 |>.wr PWR.STATE 3
     .next (if s.sys.power.waiting then (s'.coldReset .wake).coldStart.modPow fun p => { p with waiting := true } else s'))
  else .next s

/-- POWER_GOOD_RETURN (R399): with PG_HV the bias domain returns, every channel still held. -/
def execPowerGoodReturn (pg : Fin 3) (s : State) : Result := finish s <|
  let s := s.modSys fun y => { y with pins := y.pins.setPg pg.val true }
  .next (if pg.val = 2 ∧ s.rd PWR.STATE < 2 ∧ !s.sys.power.supplyOff ∧ s.rd (PWR.DOM_STATE 87) = 1 then s.setDom 88 1 else s)

/-- SUPPLY_RECOVERY (R399): every power-good input has been asserted for 10 ms; the device starts as a wake from
DIAPAUSE. -/
def execSupplyRecovery (s : State) : Result := finish s <|
  if !s.sys.power.supplyOff then .next s
  else
    let s := s.modSys fun y => { y with pins := { y.pins with pgCore := true, pgAna := true, pgHv := true } }
    .next ((s.coldReset .wake).wr PWR.WAKE_SRC 64).coldStart

/-! ### The reference clock (R494) -/

/-- REFCLK_LOSS (R494): in IMAGO and INSTAR every region PLL loses lock; the core clock goes on in holdover. -/
def execRefclkLoss (s : State) : Result := finish s <|
  let s := s.wr (PWR.CLK_STATE 40) 0
  .next (if s.rd PWR.STATE < 2 then
    (List.range 4).foldl (fun s r => (s.pllLoses r false).pllLoses r true) s else s)

/-- REFCLK_RETURN (R494). -/
def execRefclkReturn (s : State) : Result := finish s <| .next (s.wr (PWR.CLK_STATE 40) 1)

end Sys2Proof.Machine
end

