-- ==== Sys2Proof/Machine/Service.lean ====
section
/-!
DEFINITION. Packets and requests: the service of every opcode, forwarding by a ridge, reply reads, and the waiting
requests a controller serves when it serves again (R292 to R303, R455, R456, R462).
-/

namespace Sys2Proof.Machine

/-! ### Opcodes (Table 10-4) -/

/-- The service of an opcode. -/
def service (op : Nat) : Service :=
  match op with
  | 0x01 => svcIdentify
  | 0x02 => svcStatus
  | 0x10 => svcStageWrite
  | 0x11 => svcStageRead
  | 0x12 => svcLiveWrite
  | 0x13 => svcRead
  | 0x18 => svcCommit
  | 0x19 => svcDiscard
  | 0x20 => svcLane true
  | 0x21 => svcLane false
  | 0x30 => svcCalibrate
  | 0x31 => svcSyscalPoint
  | 0x40 => svcSleep
  | 0x41 => svcWake
  | 0x50 => svcTableLoad
  | 0x51 => svcTableRead
  | 0x52 => svcRecipeLoad
  | 0x60 => svcCaptureArm
  | 0x61 => svcCaptureRead
  | 0x70 => svcImageWrite
  | 0x71 => svcImageActivate
  | 0x78 => svcShutdown
  | 0x7C => svcRetireUnit
  | 0x7E => svcLogRead
  | _ => svcSnapshot

/-- Requests a rafter refuses unless it is joined (R457): on the Tenon transport, a nonzero target. -/
def targetOf (op : Nat) (ps : List Byte) : Nat :=
  if op = 0x18 then getLe ps 0 8 else if op = 0x20 ∨ op = 0x21 ∨ op = 0x78 then getLe ps 4 8 else 0
def State.unaligned (s : State) (r : ReqRef) (ps : List Byte) : Bool :=
  decide (r.via = .tenon ∧ targetOf r.op ps ≠ 0) && !s.joined
/-- The service of an opcode on its transport. -/
def serve (op : Nat) : Service := fun r ps s =>
  if s.unaligned r ps then s.refuse r .precondition "UNALIGNED" else service op r ps s

/-! ### Forwarding (R297, R455, R456, R462) -/

/-- The bytes of a request packet. -/
def requestBytes (op : Nat) (tag flags : Byte) (ps : List Byte) : List Byte :=
  sealed ([0xA7, byteOf op, tag, flags] ++ le 2 ps.length ++ [0, 0] ++ ps)

/-- A forwarded request leaves on the downstream port. -/
def State.forward (s : State) (r : ReqRef) (addr : Nat) (ps : List Byte) : State :=
  let m : TenMsg := ⟨addr, 0, 0, requestBytes r.op r.tag (byteOf r.notify.toNat) ps⟩
  let s := (s.sendMsg 1 m).inc (TEN.FWD_CNT 1)
  s.modTen fun t => { t with fwd := t.fwd ++ [⟨r, addr, s.tickno, false, false⟩] }

/-- A WAKE to a sleeping rafter: WAKE blocks go out until it answers. -/
def State.forwardWake (s : State) (r : ReqRef) (addr : Nat) : State :=
  let s := (s.modPort 1 fun p => { p with blocks := p.blocks ++ [block 0xA5 [addr]], waking := some addr }).inc (TEN.FWD_CNT 1)
  (s.modTen fun t => { t with fwd := t.fwd ++ [⟨r, addr, s.tickno, true, true⟩] }).accepted r []

/-- The forwarding of an opcode by a ridge: byte 0 names the rafter. -/
def fwdService : Service := fun r ps s =>
  let addr := getLe ps 0 1
  let r := { r with pre := ps.take 4 }
  if ps.length < 4 then s.bad r .badLength
  else if addr = 0 ∨ 31 < addr ∨ getLe ps 1 3 ≠ 0 then s.bad r .badAddress
  else if !s.bit (TEN.PRESENT 1) addr then s.refuse r .badAddress "NO_RAFTER"
  else if s.bit (TEN.ASLEEP 1) addr then
    (if r.op = 0x41 then s.forwardWake r addr else s.refuse r .busy "ASLEEP" 0xFFFFFFFF (spGet 0 s.ten.sleeping addr))
  else s.forward r addr (ps.drop 4)

/-- A request of an opcode has passed the packet checks. -/
def State.request (s : State) (op : Nat) (r : Request) : State := s.receive op r (serve op) fwdService

/-! ### PACKET_WRITE (R294) -/

/-- A packet: sync, length, CRC, opcode and header in this order. -/
def State.packet (s : State) (via : Via) (bs : List Byte) : State :=
  let len := getLe bs 4 2
  let op := getLe bs 1 1
  let flags := bs.getD 3 0
  let spare := decide (getLe bs 6 2 ≠ 0)
  let req : Request := ⟨via, bs.getD 2 0, if spare then flags ||| 2 else flags, (bs.drop 8).take len⟩
  if bs.getD 0 0 ≠ 0xA7 then s.inc DEV.CMD_DROP_CNT
  else if 4096 < len ∨ bs.length ≠ len + 10 then s.reject op req .badLength
  else if getLe bs (len + 8) 2 ≠ (crc16 (bs.take (len + 8))).toNat then s.reject op req .badCrc
  else if !opcodes.contains op then s.reject op req .badOpcode
  else s.request op req

/-- PACKET_WRITE (R294). -/
def execPacketWrite (via : Via) (bytes : List Byte) (s : State) : Result := finish s <| .next (s.packet via bytes)

/-! ### Reply reads (R295, R321) -/

/-- The oldest request that waits for a reply place is taken in. -/
def State.takeFresh (s : State) (v : Via) : State :=
  let t := s.trans v
  if replyPlaces ≤ t.replies.length then s
  else match t.waiting.find? fun w => w.fresh with
    | none => s
    | some w =>
      let s := s.modTrans v fun t => { t with waiting := t.waiting.filter fun x => decide (x.ref.rid ≠ w.ref.rid) }
      s.takeIn w.ref.op ⟨v, w.ref.tag, w.flags, w.params⟩ (serve w.ref.op) fwdService

/-- REPLY_READ (R295, R298). On the Tenon transport the link itself reads: the reply leaves in a reply message (R455). -/
def execReplyRead (via : Via) (whole : Bool) (s : State) : Result := finish s <|
  let s := match whole, via, s.tenon.replies with
    | true, .tenon, x :: _ => s.sendMsg 0 ⟨0, s.tenAddr, 1, x.bytes⟩
    | _, _, _ => s
  let s' := s.readReply via whole
  .next (if whole then s'.takeFresh via else s')

/-- Requests that waited for the controller are served in the order they came (R301). -/
def State.drainWaiting (s : State) : State :=
  let ws := [Via.spi, Via.i2c, Via.tenon].flatMap fun v => (s.trans v).waiting.filter fun w => !w.fresh
  let s := [Via.spi, Via.i2c, Via.tenon].foldl (fun s v => s.modTrans v fun t => { t with waiting := t.waiting.filter fun w => w.fresh }) s
  let order := ws.mergeSort fun a b => decide (a.ref.rid ≤ b.ref.rid)
  order.foldl (fun s w => s.dispatch w.ref w.flags w.params (if w.flags.getLsbD 7 then fwdService else serve w.ref.op)) s

end Sys2Proof.Machine
end

