-- ==== Sys2Proof/Machine/Boot.lean ====
section
/-!
DEFINITION. Resets, cold and warm starts, firmware, the boot commit, the watchdog, activation, the health mirror and the
self-test (R328, R334, R403 to R429, R458).
-/

namespace Sys2Proof.Machine

/-! ### Resets (R403 to R405, R424) -/

/-- POWER_ON_RESET (R403, R405, R406). -/
def execPowerOnReset (s : State) : Result := finish s <|
  let s := ((s.coldReset .por).modSys fun y => { y with pins := { y.pins with vaonMain := true } }).logEv { level := 4, code := 0x5101 }
  .next (if s.sys.pins.resetN then s.coldStart else s)

/-- RESET_N_ASSERT (R404): RESET_N is low from now on. -/
def execResetNAssert (s : State) : Result := finish s <| .next (s.modSys fun y => { y with pins := { y.pins with resetN := false } })

/-- What a warm reset takes from every table: writes abandoned, armed swaps cancelled (R140). -/
def State.tablesWarm (s : State) : State :=
  (List.range 8).foldl (fun s n => [Tbl.ctx, Tbl.shp].foldl (fun s t =>
    if (s.tbl n t).write.isSome ∨ (s.tbl n t).armed.isSome then s.stopWrite n t else s) s) s

/-- Everything a restart of the management side ends: requests, transports and what was pending (Table 11-5, R318). -/
def State.dropRequests (s : State) : State :=
  let s := [0, 1].foldl (fun s d => match (s.dom d).commit with
    | some c => (s.releaseHolds c.tables).modDom d fun m => { m with commit := none }
    | none => s) s
  let s := s.loseStaged .denied "RESET"
  let s := (List.range 8).foldl (fun s n =>
    let run := decide (s.rd (OBS.CAP_STATE n) = 1 ∨ s.rd (OBS.CAP_STATE n) = 2)
    let s := s.modCap n fun c => { c with ref := none, hit := none }
    let s := if run then s.wr (OBS.CAP_STATE n) 0 else s
    s.modRx n fun r => { r with bgCal := none }) s
  let s := s.modSys fun y => { y with
    hk := { y.hk with cal := none }
    refcal := y.refcal.map fun c => { c with ref := none }
    images := { y.images with write := none, recipe := none, act := none, sign := [] }
    power := { y.power with sleep := none, shutdown := none, refs := [] }
    ten := { y.ten with fwd := [] } }
  { s with spi := .reset, i2c := .reset, tenon := .reset, unit := none, lanes := [], longOps := [], loads := []
           pubs := s.pubs.filter fun p => !p.live }

/-- The reset hold of R424: lanes idle, Joiners stopped, the controller restarting. -/
def State.warmHold (s : State) : State :=
  let s := ((s.idleLanes none).tablesWarm.dropRequests).hkRestart.clearTick
  let s := s.serving.foldl (fun s d => ((s.modJn d fun j => j.cut).wr (JNR.STATE d) 3).wrBit (JNR.FLAGS d) 4 false) s
  s.modSys fun y => { y with mcState := 3, recovery := false, selfTest := none }

/-- WARM_RESET_RECOGNISED (R404, R424): low for 10 µs. In CHRYSALIS and DIAPAUSE, and during an entry, it is a wake source
(Table 14-9); during a start it only waits for the release. A start after a reset of an activation takes the newest copy from flash
(Table 15-13). -/
def execWarmResetRecognised (s : State) : Result := finish s <|
  let p := s.sys.power
  if s.sys.pins.resetN ∨ p.warm ∨ p.escalated then .next s
  else
    let s := ((s.modPow fun p => { p with warm := true }).inc RST.WARM_CNT).logEv { level := 4, code := 0x5102 }
    if s.rd PWR.STATE ≥ 2 ∨ p.entry ≠ 0 then .next (s.wakeSource 5)
    else if p.cold ≠ 0 ∨ p.supplyOff ∨ s.sys.mcState = 0 then .next s
    else
      let s := s.wr RST.WARM_LANES s.upMask
      let s := if s.sys.images.act.isSome then s.wrBit RST.FLAGS 6 true else s
      .next ((s.warmHold.wr PWR.STATE 0).modPow fun p => { p with wake := 0, waiting := false })

/-- RESET_ESCALATION (R404, R406): still low at 2 ms; the lanes of a warm start in progress are discarded (Table 15-13). -/
def execResetEscalation (s : State) : Result := finish s <|
  if s.sys.pins.resetN ∨ s.sys.power.escalated then .next s
  else
    let t := s.tickno
    let s := if s.sys.power.restart = some true then s.wr RST.WARM_LANES 0 else s
    let s := ((s.coldReset .pin).inc RST.COLD_CNT).wrBit RST.CAUSE 2 true
    let s := s.logEv { level := 4, code := 0x5103, data := le 6 t }
    .next (s.modPow fun p => { p with escalated := true })

/-- RESET_N_RELEASE (R404, R405, R408, R424): a cold start after an escalation, or where none has begun yet; the warm start
after a warm reset; a trim load aborted by the reset starts again. -/
def execResetNRelease (s : State) : Result := finish s <|
  let p := s.sys.power
  let s := s.modSys fun y => { y with pins := { y.pins with resetN := true }, power := { y.power with warm := false, escalated := false } }
  if p.escalated then .next s.coldStart
  else
    let s := if p.warm then s.wrBit RST.CAUSE 1 true else s
    if p.cold = 2 ∧ p.warm then .next (s.wr RST.TRIM_ATTEMPTS 0)
    else if s.sys.mcState = 3 ∧ p.warm then .next (s.modPow fun p => { p with restart := some true })
    else if p.cold = 0 ∧ p.wake = 0 ∧ p.entry = 0 ∧ s.sys.mcState = 0 ∧ s.rd PWR.STATE = 0 ∧ !p.supplyOff then .next s.coldStart
    else .next s

/-! ### Trims (R407 to R409) -/

/-- TRIM_LOAD_COMPLETE (R407, R408): a load ends with its CRC check; a recognised reset has aborted it. -/
def execTrimLoadComplete (crc : Bool) (s : State) : Result := finish s <|
  if s.sys.power.cold ≠ 2 ∨ s.sys.power.warm ∨ 3 ≤ s.rd RST.TRIM_ATTEMPTS then .next s
  else
    let s := s.inc RST.TRIM_ATTEMPTS
    if crc then .next (((s.trimValid.faultOff 3).bootStep 3).avsAsk none)
    else if s.rd RST.TRIM_ATTEMPTS = 3 then .next ((s.faultOn 3).logEv { level := 4, fault := true, code := 0x5105 })
    else .next s

/-- TRIM_RECHECK (R409): `ok` says whether the shadow CRC is good. -/
def execTrimRecheck (ok : Bool) (s : State) : Result := finish s <|
  if ok ∨ !s.bit RST.FLAGS 0 ∨ s.bit RST.FLAGS 1 then .next s
  else .next (((s.wrBit RST.FLAGS 1 true).faultOn 3).logEv { level := 4, fault := true, code := 0x5105 })

/-! ### Cold start (Table 15-3) -/

/-- COLD_START_STEP_DONE (R410): the step in progress ends. `role` and `src` are the straps step 1 samples, `aonOk` says
whether the always-on health record's CRC is good at step 5. -/
def execColdStartStepDone (role src : BitVec 2) (aonOk : Bool) (s : State) : Result := finish s <|
  if s.sys.power.waiting then .next s
  else match s.sys.power.cold with
    | 1 => .next (((s.sampleStraps role.toNat src.toNat).bootStep 2).wr RST.TRIM_ATTEMPTS 0)
    | 3 =>
      let s := s.avsConfirm.modSys fun y => { y with pins := { y.pins with pgCore := true, pgAna := true, pgHv := true } }
      .next (((s.wr (PWR.CLK_STATE 36) 2).wr (PWR.CLK_STATE 37) 2).bootStep 4)
    | 4 =>
      let s := s.bootClocks aonOk
      .next ([0, 1].foldl (fun s p => if s.rd (TEN.EN p) = 1 ∧ s.roleUses p then s.portEnable p true else s) s)
    | 7 =>
      let s := if s.mirrorOwed then s.mirrorHealth else s
      .next (((s.hkStart s.sys.power.fromSleep).bootStep 8).refcalStart none)
    | _ => .next s

/-- COLD_START_STEP_TIMEOUT (R410). -/
def execColdStartStepTimeout (which : Fin 8) (s : State) : Result := finish s <|
  let p := s.sys.power
  if p.waiting then .next s
  else match waitRefuser true p.cold which.val with
    | some c => .next (s.wakeAbort c)
    | none => .next s

/-- The SEQ fields of every image type show the flash. -/
def State.showAll (s : State) : State := [0, 1, 2, 3].foldl (fun s ty => s.showSeqs ty) s

/-- FIRMWARE_VERIFIED (R416, R420, R458): the boot ROM has tried the copies; `readable` says whether the flash could be
read. A rafter that boots over the link waits for its stream. -/
def execFirmwareVerified (readable : Bool) (s : State) : Result := finish s <|
  if s.sys.power.cold ≠ 6 then .next s
  else
    let s := if readable then s.showAll else s
    let link := decide (s.rd DEV.ROLE = 2 ∧ s.rd DEV.BOOT_SRC ≠ 0 ∧ s.rd DEV.BOOT_SRC ≠ 3)
    match (if readable ∨ s.noFlash then s.bootImg 0 else (if link then (s.streamImg 0).map fun x => (x.1, x.2, 0) else none)) with
    | some (img, seq, copy) =>
      let s := s.useFirmware img copy seq
      .next ((((s.modSys fun y => { y with recovery := false }).wrBit RST.FLAGS 6 false).bootStep 7).modTen fun t => { t with failed := 0 })
    | none => .next (if link ∧ s.ten.failed < 3 then s else s.recover)

/-- TENON_BOOT_TIMEOUT (R458): the upstream port is not UP within 1 s. -/
def execTenonBootTimeout (s : State) : Result := finish s <|
  .next (if s.sys.power.cold = 6 ∧ s.linkBoot ∧ !s.portUp 0 then s.recover else s)

/-! ### The boot commit (R328, R418) -/

/-- The entries of a configuration body: address and value. -/
def cfgEntries (body : List Byte) : List (Nat × Nat) := (List.range (getLe body 6 2)).map fun i => (getLe body (8 + 12 * i) 4, getLe body (12 + 12 * i) 8)

/-- Why one entry of a configuration is rejected, beside the agreement rules. -/
def entryFails (e : Nat × Nat) : Option (String × Nat) :=
  (expand e.1).findSome? fun a =>
    match fieldCls a with
    | none => some ("UNKNOWN", e.1)
    | some .ro => if a = DEV.SPLIT ∨ a = DEV.I2C_ADDR then none else some ("RO_FIELD", a)
    | some _ => if 2 ^ fieldWidth a ≤ e.2 ∨ reservedIn a e.2 then some ("RESERVED", a) else none

/-- The fields of the configuration's entries, those outside the staged classes left out. -/
def cfgFields (body : List Byte) : List (Nat × Nat) :=
  ((cfgEntries body).flatMap fun e => (expand e.1).map fun a => (a, e.2)).filter fun x =>
    decide (x.1 ≠ DEV.SPLIT ∧ x.1 ≠ DEV.I2C_ADDR)

/-- DEV.SPLIT and DEV.I2C_ADDR of a configuration (R327): the header bytes of its body. -/
def State.useCfgHead (s : State) (body : List Byte) : State :=
  (s.wr DEV.SPLIT (getLe body 0 1 % 2)).wr DEV.I2C_ADDR (getLe body 1 1 % 128)

/-- Does a configuration pass the boot commit's checks: none, or the first failure. -/
def State.cfgFails (s : State) (body : List Byte) (b : Bundle) : Option (String × Nat) :=
  match (cfgEntries body).findSome? entryFails with
  | some f => some f
  | none =>
    Cand.fail { s := s.useCfgHead body, staged := (cfgFields body).foldl (fun l x => spPut l x.1 x.2) [], tables := [],
                bundle := b, all := true }

/-- The bundle a start takes; factory content where there is none (R418). -/
def State.bootBundle (s : State) : Bundle :=
  match s.bootImg 2 with
  | some (img, seq, _) => bundleOf seq (imgBody img)
  | none => ⟨0, []⟩

/-- The valid configuration copies, newest first, with SEQ and copy code (1 A, 2 B, 0 over the link). -/
def State.bootCfgs (s : State) : List (List Byte × Nat × Nat) :=
  match s.bootImg 1 with
  | none => []
  | some (img, q, c) =>
    let other := 2 - (c - 1)
    (img, q, c) :: (if c = 0 then [] else
      match s.copySeq 1 (other - 1) with
      | some q' => [(s.copyImg 1 (other - 1), q', other)]
      | none => [])

/-- Apply the first copy that passes; each rejected one is logged, and where none passes the reset values run. -/
def State.applyBoot (s : State) (b : Bundle) : List (List Byte × Nat × Nat) → State
  | [] => s.wr DEV.BOOT_COMMIT 2
  | (img, q, c) :: rest =>
    let body := imgBody img
    match s.cfgFails body b with
    | some (nm, a) =>
      (s.logEv { level := 4, irq := true, code := 0x0101, detail := a, data := nameBytes 13 nm }).applyBoot b rest
    | none =>
      let s := (s.useCfgHead body).applyFields ((cfgFields body).foldl (fun l x => spPut l x.1 x.2) [])
      let s := (s.wr DEV.CFG_SEQ q).wr DEV.CFG_COPY c
      (s.modImg fun m => { m with autoLine := getLe body 2 1, autoHost := getLe body 4 2 }).wr DEV.BOOT_COMMIT 1

/-- LANE_UP of line and host lanes at the earliest lawful boundary, per die in split mode. -/
def State.autoUp (s : State) (line host : Nat) : State :=
  let one := fun (s : State) (ds : List Nat) (l h : Nat) =>
    if (l = 0 ∧ h = 0) ∨ s.sys.thermShut ∨ s.noJoiner then s
    else { s with lanes := s.lanes ++ [LaneReq.mk true l h (s.earliest ds) none] }
  if s.split then one (one s [0] (line % 16) (host % 256)) [1] (line / 16 * 16) (host / 256 * 256) else one s [0, 1] line host

/-- BOOT_COMMIT (R328, R393, Table 15-3 step 9): the configuration and the bundle enter service, the controller serves and
the automatic lanes are asked for, after the join on a rafter (R453). `us` is the time since the wake source of a wake
from DIAPAUSE. -/
def execBootCommit (us : BitVec 32) (s : State) : Result := finish s <|
  if s.sys.power.cold ≠ 9 ∨ s.sys.pins.testMode then .next s
  else
    let sleep := s.sys.power.fromSleep
    let p := s.sys.power
    let s := { s with regs := s.regs.filter fun x => decide (x.1 ≠ PWR.WAKE_RETRIES ∧ x.1 ≠ PWR.WAKE_RETRY_MS) }
    let s := if s.sys.txDis then (List.range 8).foldl (fun s n => (s.wr (LTX.SQUELCH n) 1).wrBit (LTX.FLAGS n) 5 true) s else s
    let s := if s.sys.thermShut then
        (let s := (List.range 8).foldl (fun s n => s.wr (LTX.SQUELCH n) 1) s
         (List.range 16).foldl (fun s k => s.wr (HTX.SQUELCH k) 1) s)
      else s
    let s := (s.wr PWR.STATE 0).wrBit PWR.FLAGS 4 false
    let b := s.bootBundle
    let s := (s.applyBoot b s.bootCfgs).useBundle b [] [0, 1]
    let s := ((s.wr DEV.CFG_GEN0 1).wr DEV.CFG_GEN1 1).choosePair.initMasters
    let s := s.modSys fun y => { y with
      mcState := 2, power := { y.power with cold := 0, tries := 0, waiting := false, refs := [], fromSleep := false, serveT := s.tickno } }
    let s : State := if sleep then
        (let s := (s.inc PWR.WAKE_CNT).wr PWR.LAST_WAKE_US us.toNat
         let s := s.logEv { level := 4, code := 0x5003, detail := us.toNat }
         p.refs.foldl (fun (s : State) r => s.ok r [0, byteOf p.tries]) s)
      else s
    let m : Images := s.sys.images
    let s : State := if s.mustJoin ∧ (m.autoLine ≠ 0 ∨ m.autoHost ≠ 0) then
        s.modTen fun t => { t with join := some (m.autoLine, m.autoHost, false) }
      else s.autoUp m.autoLine m.autoHost
    .next s.drainWaiting

/-! ### Controller restarts (R39, R318, R420, R421, R423, R424) -/

/-- A firmware copy that fails to start is marked BAD, and the one before it runs again (R423). -/
def State.fallBack (s : State) (bad old : Nat) : State :=
  let s := if bad < 2 then (s.flashPut ((copyArea 0 bad).1 + (copyArea 0 bad).2 - 8) [0, 0, 0, 0]).showSeqs 0 else s
  let s := ((s.wrBit RST.FLAGS 3 true).modImg fun m => { m with trial := none }).logEv { level := 4, code := 0x5106 }
  if old = 0 then s
  else match s.copySeq 0 (old - 1) with
    | some q => s.useFirmware (s.copyImg 0 (old - 1)) old q
    | none => s

/-- Ticks of a number of seconds. -/
def State.secTicks (s : State) (n : Nat) : Nat := n * s.ticksPerSecond

/-- WATCHDOG_EXPIRY (R421, R318, R423, Table 11-5): the controller restarts; requests without a final reply are answered, an
armed commit completes. -/
def execWatchdogExpiry (s : State) : Result := finish s <|
  if s.sys.mcState ≠ 2 then .next s
  else
    let s := ((s.inc RST.WDT_CNT).inc DEV.MC_RESTART_CNT).logEv { level := 3, inst := s.rd DEV.SERVING_DIE, code := 0x5104 }
    let keep := s.doms.filterMap fun d => d.commit.bind fun c => if c.armed then some c.ref.rid else none
    let s := [0, 1].foldl (fun s d => match (s.dom d).commit with
      | some c => if c.armed then s else s.cancelCommit d .hwFault "MC_RESTART"
      | none => s) s
    let s := s.loseStaged .hwFault "MC_RESTART"
    let s := (List.range 8).foldl (fun s n => (s.modCap n fun c => { c with ref := none }).modRx n fun r => { r with bgCal := none }) s
    let s := { (s.answerAll keep) with longOps := [], lanes := s.lanes.filter fun q => q.ref.isNone, unit := none }
    let s := s.modSys fun y => { y with
      hk := { y.hk with cal := none }, refcal := y.refcal.map fun c => { c with ref := none }
      images := { y.images with write := none, recipe := none, act := none, sign := [] }
      power := { y.power with sleep := none, shutdown := none, refs := [] }, ten := { y.ten with fwd := [] } }
    let s := match s.sys.images.trial with
      | some (new, old) =>
        if ticksSince s.tickno s.sys.power.serveT < s.secTicks 10 then s.fallBack new old
        else s.modImg fun m => { m with trial := none }
      | none => s
    let recent := (s.sys.power.wdt.filter fun t => decide (ticksSince s.tickno t < s.secTicks 60)) ++ [s.tickno]
    let s := s.modPow fun p => { p with wdt := recent }
    .next (if s.rd RST.WDT_LIMIT ≤ recent.length then (s.modSys fun y => { y with mcState := 5 }).logOpen { level := 4, irq := true }
      else s.modSys fun y => { y with mcState := 3, power := { y.power with restart := some false } })

/-- CONTROLLER_RESTART_DONE (R420, R421, R424): the controller serves again and takes the waiting requests; after a warm
reset the Joiners resume and the lanes of WARM_LANES are brought up; out of the recovery service the written copy starts. -/
def execControllerRestartDone (s : State) : Result := finish s <|
  match s.sys.power.restart with
  | none => .next s
  | some warm =>
    if s.sys.power.warm then .next s else
    let s := s.modPow fun p => { p with restart := none, serveT := s.tickno }
    let s := if s.bit RST.FLAGS 6 then
        (match s.newest 0 with
        | some (c, q) => (s.useFirmware (s.copyImg 0 c) (c + 1) q).wrBit RST.FLAGS 6 false
        | none => s)
      else s
    if s.sys.recovery then
      .next (if (s.newest 0).isSome then ((s.modSys fun y => { y with recovery := false }).bootStep 7) else s)
    else
      let s := s.serveNow
      let s := if warm then
          let s := s.serving.foldl (fun s d => if s.rd (JNR.STATE d) = 3 then s.joinerResume d false else s) s
          let m := s.rd RST.WARM_LANES
          if m = 0 ∧ s.sys.lanesIdle then s.modSys fun y => { y with lanesIdle := false } else s.autoUp (m % 256) (m / 256)
        else s
      .next s.drainWaiting

/-- SVN_FLOOR_RAISE (R419): an hour of service without a watchdog restart. -/
def execSvnFloorRaise (s : State) : Result := finish s <|
  let m := s.sys.images
  .next (if s.sys.mcState = 2 ∧ m.lockSvn ∧ s.secTicks 3600 ≤ ticksSince s.tickno s.sys.power.serveT then
    s.wr RST.SVN_FLOOR (max (s.rd RST.SVN_FLOOR) m.svn) else s)

/-- ACTIVATION_SERVE (R422, step 5): the new firmware serves, `ms` after Q. -/
def execActivationServe (ms : BitVec 16) (s : State) : Result := finish s <|
  match s.sys.images.act with
  | none => .next s
  | some a =>
    match a.q, s.actImg a with
    | some _, some (img, copy, seq) =>
      let s := (s.useFirmware img copy seq).modImg fun m => { m with act := none, trial := some (a.copy, a.old) }
      let s := (s.resumeAll.inc RST.ACTIVATE_CNT).wr RST.ACT_PAUSE_MS ms.toNat
      let s := (s.modPow fun p => { p with serveT := s.tickno }).ok a.ref (le 4 seq ++ le 4 ms.toNat)
      .next (s.endOp a.ref.rid).drainWaiting
    | _, _ => .next s

/-- ACTIVATION_TIMEOUT (R423): not serving within 100 ms of Q. -/
def execActivationTimeout (s : State) : Result := finish s <|
  match s.sys.images.act with
  | none => .next s
  | some a =>
    if a.q.isNone then .next s
    else
      let s := (s.fallBack a.copy a.old).resumeAll
      .next (s.actFails a .hwFault "FW_START").drainWaiting

/-! ### Health mirror and self-test (R426, R429) -/

/-- HEALTH_MIRROR_WRITE (R426). -/
def execHealthMirrorWrite (s : State) : Result := finish s <| .next (if s.bit RST.FLAGS 5 ∧ s.sys.mcState = 2 then s.mirrorHealth else s)

/-- Units of a slice of Table 15-12. -/
def sliceUnits (i : Nat) : Nat :=
  if i < 8 then 66 else if i < 16 then 4 else if i < 32 then 66 else if i < 40 then 34 else if i < 42 then 32
  else if i < 44 then 2 else 1

/-- The health bits a slice's result sets; a replica that comes back waits to be admitted (R139). -/
def State.sliceResult (s : State) (i pass : Nat) : State :=
  let n := i % 8
  let repl := fun (s : State) (t : Tbl) =>
    let back := (List.range 66).filter fun r => pass.testBit r && !s.replUsable n t r
    (s.putStr66 (healthAddr t n) pass).modTbl n t fun m => { m with returning := m.returning ++ back }
  if i < 8 then s.putStr66 (sliceHealth n) pass
  else if i < 16 then
    let back := (List.range 4).any fun k => pass.testBit k && !s.bit (LTX.SUBDAC_HEALTH n) k
    let s := s.wr (LTX.SUBDAC_HEALTH n) pass
    if back then (s.wrBit DEV.TXCAL_VALID_L400 n false).wrBit DEV.TXCAL_VALID_L200 n false else s
  else if i < 24 then repl s .ctx
  else if i < 32 then repl s .shp
  else if i < 40 then s.wr (FEC.EVAL_HEALTH n) pass
  else if i < 42 then s.wr (RST.SIMD_HEALTH (i - 40)) pass
  else if i < 44 then s.wrBit RST.PAIR_USABLE (2 * (i - 42) + 1) (decide (pass % 4 = 3))
  else s.wrBit RST.PAIR_USABLE (2 * (if i = 44 then 1 - s.rd DEV.SERVING_DIE else s.rd DEV.SERVING_DIE)) (decide (pass % 2 = 1))

/-- A slice has ended: counted; one that was cut off keeps its units' bits. -/
def State.sliceEnds (s : State) (i pass : Nat) (cut : Bool) : State :=
  if cut then s.inc RST.ST_SKIPPED
  else
    let k := sliceUnits i
    let bad := ((List.range k).filter fun u => !pass.testBit u).length
    (((s.add RST.ST_TESTED k).add RST.ST_FAILED bad).sliceResult i (pass % 2 ^ k)).healthChg

/-- SELFTEST_SLICE_END (R429): a slice but the last ends; `pass` has a bit for each unit. After the others the record is
mirrored and the last slice handed over; without a usable controller on the other die it is skipped. -/
def execSelftestSliceEnd (cut : Bool) (pass : BitVec 66) (s : State) : Result := finish s <|
  match s.sys.selfTest with
  | none => .next s
  | some t =>
    if lastSlice ≤ t.slice then .next s
    else
      let s := (s.sliceEnds t.slice pass.toNat cut).modSys fun y => { y with selfTest := some { t with slice := t.slice + 1 } }
      .next (if t.slice + 1 ≠ lastSlice then s
        else if s.bit RST.PAIR_USABLE (2 * (1 - s.rd DEV.SERVING_DIE)) then s.mirrorHealth
        else (s.inc RST.ST_SKIPPED).testEnd)

/-- SELFTEST_HANDOVER (R429): the other die's boot ROM tests the serving SRAM and ends the test. -/
def execSelftestHandover (cut pass : Bool) (s : State) : Result := finish s <|
  match s.sys.selfTest with
  | none => .next s
  | some t => if t.slice ≠ lastSlice then .next s else .next (s.sliceEnds lastSlice pass.toNat cut).testEnd

/-! ### Keys and the test port (R430, R432, R504) -/

/-- OWNER_KEY (R430): an owner slot is programmed once. -/
def execOwnerKey (slot : Fin 4) (hash : BitVec 384) (s : State) : Result := finish s <|
  .next (if slot.val = 0 ∨ s.bit RST.KEY_STATE slot.val then s
    else (s.modImg fun m => { m with keys := modNth 0 m.keys (slot.val - 1) fun _ => hash }).wrBit RST.KEY_STATE slot.val true)

/-- REVOKE_KEY (R430). -/
def execRevokeKey (slot : Fin 4) (s : State) : Result := finish s <|
  .next (if slot.val = 0 ∨ !s.bit RST.KEY_STATE slot.val then s else s.wrBit RST.KEY_STATE (4 + slot.val) true)

def State.modJtag (s : State) (f : Jtag → Jtag) : State := s.modSys fun y => { y with jtag := f y.jtag }

/-- JTAG_IDCODE (R504): the identifier goes between TDI and TDO. -/
def execJtagIdcode (s : State) : Result := finish s <| .next (s.modJtag fun j => { j with inst := 1, dr := 0x13208A3D, drive := false })
/-- JTAG_BYPASS (R432): the one-bit bypass register, captured as 0. -/
def execJtagBypass (s : State) : Result := finish s <| .next (s.modJtag fun j => { j with inst := 2, dr := 0, drive := false })
/-- JTAG_SAMPLE_PRELOAD (R432): the pins are sampled and the boundary register loaded. -/
def execJtagSamplePreload (pins load : Nat) (s : State) : Result := finish s <|
  .next (s.modJtag fun j => { j with inst := 3, dr := pins, preload := load, drive := false })
/-- JTAG_EXTEST (R432): the pins are driven from the boundary register. -/
def execJtagExtest (pins : Nat) (s : State) : Result := finish s <| .next (s.modJtag fun j => { j with inst := 4, dr := pins, drive := true })

/-- A private instruction (R432): domains are held, secrets cleared, FUSE off; only with the cleared stores read back as zero
does it take effect. -/
def State.testMode (s : State) (inst : Nat) (zero : Bool) : State :=
  let s := (s.warmHold.setDom 90 0).modPow fun p => { p with restart := some false }
  if !zero then s
  else
    let s := if s.sys.jtag.cleared then s else (s.wrBit RST.FLAGS 4 true).logEv { level := 4, code := 0x5107 }
    s.modJtag fun j => { j with inst := inst, dr := 0, drive := false, cleared := true }

/-- SCAN_EN (R432). -/
def execScanEn (zero : Bool) (s : State) : Result := finish s <| .next (s.testMode 5 zero)
/-- MBIST_EN (R432). -/
def execMbistEn (zero : Bool) (s : State) : Result := finish s <| .next (s.testMode 6 zero)
/-- DBG_EN (R432): the test port is enabled. -/
def execDbgEn (zero : Bool) (s : State) : Result := finish s <|
  let s := s.testMode 7 zero
  .next (if zero then s.setDom 91 1 else s)

end Sys2Proof.Machine
end

