-- ==== Sys2Proof/Machine/HostLane.lean ====
section
/-!
DEFINITION. Host lane commands: loss, holds, training, entry to DATA, line loss (R184 to R195).
-/

namespace Sys2Proof.Machine

/-- EBUF_EXCURSION (R190, R192). -/
def execEbufExcursion (k : HostLane) (s : State) : Result := finish s <|
  let k := k.val
  let st := s.rd (HRX.STATE k)
  if (st = 3 ∨ st = 4) ∧ (s.rdS (HRX.EBUF_FILL k)).natAbs > 16 then
    let s := (s.wrBit (HRX.FLAGS k) 3 true).inc (HRX.EBUF_CNT k)
    let s := (s.hostLog k 0x2003 (s.rd (HRX.EBUF_CNT k))).modHost k fun h => { h with holdEbuf := true }
    .next (s.hostHoldNow k)
  else .next s

/-- HOST_LOS_DECLARE (R188, R192). -/
def execHostLosDeclare (k : HostLane) (s : State) : Result := finish s <|
  let k := k.val
  let st := s.rd (HRX.STATE k)
  if st = 0 ∨ st = 6 ∨ s.bit (HRX.FLAGS k) 0 ∨ (s.hostL k).dark < s.rd (HRX.LOS_TICKS k) then .next s
  else
    let s := (s.wrBit (HRX.FLAGS k) 0 true).inc (HRX.LOS_CNT k)
    let s := s.hostLog k 0x2001 (s.rd (HRX.LOS_CNT k))
    .next (if st = 3 ∨ st = 4 ∨ st = 5 then
      (let s := s.modHost k fun h => { h with holdLos := true }
       if st = 5 then s else s.hostHoldNow k)
    else s)

/-- HOST_LOS_CLEAR (R188, R192). -/
def execHostLosClear (k : HostLane) (s : State) : Result := finish s <|
  let k := k.val
  if !s.bit (HRX.FLAGS k) 0 ∨ (s.hostL k).lit < 2 then .next s
  else
    let s := (s.wrBit (HRX.FLAGS k) 0 false).modHost k fun h => { h with holdLos := false }
    .next (if s.rd (HRX.STATE k) = 1 then s.hostLit k else s.tryHost k)

/-- HOST_LOL_DECLARE (R189, R192); where the conditions of LOS hold in the same tick, LOS is declared instead (R197). -/
def execHostLolDeclare (k : HostLane) (s : State) : Result := finish s <|
  let k := k.val
  let st := s.rd (HRX.STATE k)
  if (st = 2 ∨ st = 3 ∨ st = 4) ∧ !s.bit (HRX.FLAGS k) 0 ∧ (s.hostL k).dark < s.rd (HRX.LOS_TICKS k) ∧ ((s.hostL k).slips ∨ s.bit (HRX.FLAGS k) 2) then
    if s.bit (HRX.FLAGS k) 1 then .next s
    else
      let s := (s.wrBit (HRX.FLAGS k) 1 true).inc (HRX.LOL_CNT k)
      let s := s.hostLog k 0x2002 (s.rd (HRX.LOL_CNT k))
      .next (if st = 2 then s else (s.modHost k fun h => { h with holdLol := true }).hostHoldNow k)
  else .next s

/-- The answer to a training request that the lane's frames carry from now on (R184, R185). -/
def State.answer (s : State) (k : Nat) (a : TrainAnswer) : State := s.modHost k fun h => { h with answer := a }

/-- The transmit taps after a request of a tap step (R184): unchanged, with "coefficient at limit", at a limit. -/
def State.tapStep (s : State) (k : Nat) (tap : Nat) (by_ : Int) : State :=
  let taps := (List.range 6).map fun i => s.rdS (HTX.FIR_TAP k i)
  let new := taps.set tap (taps.getD tap 0 + by_)
  if txTapsOk new then (s.wr (HTX.FIR_TAP k tap) (enc 8 (new.getD tap 0))).answer k .updated else s.answer k .atLimit

/-- TRAINING_REQUEST (R184, R185, R187): one request of the partner's training frame, answered in ours. DESIGN CHOICE: a
preset that does not exist is answered as at the limit (log 172). -/
def execTrainingRequest (k : HostLane) (req : TrainReq) (s : State) : Result := finish s <|
  let k := k.val
  if s.rd (HRX.STATE k) ≠ 2 then .next s
  else .next (match req with
    | .increment t => s.tapStep k t.val 1
    | .decrement t => s.tapStep k t.val (-1)
    | .noChange _ => s.answer k .updated
    | .preset p =>
      if txTapsOk (s.sys.bundle.preset k p.val) ∧ 1 ≤ p.val ∧ p.val ≤ 5 then (s.hostPreset k p.val).answer k .updated
      else s.answer k .atLimit
    | .precode on => (s.wrBit (HTX.FLAGS k) 2 on).answer k .updated
    | .ready => s.modHost k fun h => { h with partnerReady := true })

/-- HOST_RX_READY (R185): 64 consecutive ticks on the training pattern, each good and with the last four equaliser
publishes quiet. -/
def execHostRxReady (k : HostLane) (s : State) : Result := finish s <|
  let h := s.hostL k.val
  if s.rd (HRX.STATE k.val) = 2 ∧ 64 ≤ h.good then
    .next (s.modHost k.val fun h => { h with ready := true })
  else .next s

/-- TRAINING_END (R185): both ends are ready; the receive precoding is the one requested. -/
def execTrainingEnd (k : HostLane) (s : State) : Result := finish s <|
  let k := k.val
  let h := s.hostL k
  if s.rd (HRX.STATE k) = 2 ∧ h.ready ∧ h.partnerReady then
    let s := (s.wrBit (HRX.FLAGS k) 4 false).wrBit (HRX.FLAGS k) 5 (decide (s.rd (HRX.PRECODE_REQ k) = 1))
    .next ((s.modHost k fun h => { h with trained := true, retained := true }).hostCheck k)
  else .next s

/-- TRAINING_TIMEOUT (R185). -/
def execTrainingTimeout (k : HostLane) (s : State) : Result := finish s <|
  let k := k.val
  if s.rd (HRX.STATE k) = 2 then
    let s := ((s.inc (HRX.LT_FAIL_CNT k)).wrBit (HRX.FLAGS k) 4 true).hostLog k 0x2004 0 true
    .next (if s.rd (HRX.AUTO_RELINK k) = 1 then s.hostTrain k true else s.hostFail k)
  else .next s

/-- HOST_DATA_ENTRY (R190, R191). -/
def execHostDataEntry (k : HostLane) (s : State) : Result := finish s <|
  let k := k.val
  if s.rd (HRX.STATE k) = 3 ∧ 64 ≤ (s.hostL k).good then
    let s := ((s.setHostState k 4).wr (HRX.EBUF_FILL k) 0).wr (HRX.FLAGS k) (s.rd (HRX.FLAGS k) &&& 0xF5)
    .next ((s.modHost k fun h => { h with step := 0, retained := true }).pairCheck (lineOfHost k))
  else .next s

/-- CHECK_TIMEOUT (R192): 100 ms of CHECK. -/
def execCheckTimeout (k : HostLane) (s : State) : Result := finish s <|
  let k := k.val
  if s.rd (HRX.STATE k) = 3 then
    let s := (s.modHost k fun h => { h with holdCheck := true }).hostHoldNow k
    .next (s.hostLog k 0x2006 (s.rd (HRX.RELINK_CNT k)))
  else .next s

/-- CHECK_HOLD_EXPIRY (R192): 10 ms after a CHECK timeout. -/
def execCheckHoldExpiry (k : HostLane) (s : State) : Result := finish s <|
  let k := k.val
  let h := s.hostL k
  if s.rd (HRX.STATE k) = 5 ∧ h.holdCheck ∧ !h.holdLos ∧ !h.holdPll ∧ s.rd (HRX.AUTO_RELINK k) = 1 then
    .next (s.hostLeave k)
  else .next s

/-- LINE_LOSS_END (R194): LINE_OK_TICKS clean ticks on the pair. -/
def execLineLossEnd (n : Lane) (s : State) : Result := finish s <|
  if s.lossHolds n.val then .next s
  else .next ((pairOf n.val).foldl (fun s k =>
    if s.bit (HTX.FLAGS k) 0 ∧ s.rd (HTX.LINE_OK_TICKS k) ≤ (s.hostL k).clean then s.wrBit (HTX.FLAGS k) 0 false else s) s)

end Sys2Proof.Machine
end

