-- ==== Sys2Proof/Machine/JoinerMem.lean ====
section
/-!
DEFINITION. Memory, transfer, scalar and address Y syllables (R240 to R244, R250, Table 8-10).
-/

namespace Sys2Proof.Machine

/-! ### Loads and stores -/

/-- VLD: 64 bytes of data memory, or four capture words of an aperture. -/
def execVld (d : Die) (v : BitVec 6) (mm : Mem) (ecc : Ecc) (s : State) : Result := finish s <|
  let j := s.jv d.val
  let r := j.phys v.toNat
  .next (match j.access mm 64 64 with
  | .illegal => s.yOp d.val false [] 3 0 []
  | .off => s.gatedOff d.val [destV v.toNat]
  | .go ea upd =>
    match areaOf ea with
    | .dm => s.dmLoad d.val ea 64 16 ecc [destV v.toNat] (upd ++ [(3, .vec r 0xFFFFFFFF (vecAt j.loadDm ea ecc))])
    | .aperture c bank w =>
      if mm.amode = 2 then s.yOp d.val false [] 3 0 []
      else if !s.mayCapture d.val c then (if j.issuing then s.sandboxFault d.val ea else s)
      else
        let ws := s.capWords d.val c bank w ecc.bad
        s.capLoad d.val c ws [destV v.toNat] (upd ++ [(3, .vec r 0xFFFFFFFF (capLanes ws))])
    | _ => s.yOp d.val false [] 3 0 [])

/-- VLDC: four capture words and their sidebands. -/
def execVldc (d : Die) (v : BitVec 6) (mm : Mem) (ecc : Ecc) (s : State) : Result := finish s <|
  let j := s.jv d.val
  .next (match j.access mm 64 64 with
  | .illegal => s.yOp d.val false [] 3 0 []
  | .off => if v.toNat % 2 = 0 then s.gatedOff d.val [destV v.toNat, destV (v.toNat + 1)] else s.yOp d.val false [] 3 0 []
  | .go ea upd =>
    match areaOf ea with
    | .aperture c bank w =>
      if mm.amode = 2 ∨ v.toNat % 2 = 1 then s.yOp d.val false [] 3 0 []
      else if !s.mayCapture d.val c then (if j.issuing then s.sandboxFault d.val ea else s)
      else
        let ws := s.capWords d.val c bank w ecc.bad
        let side : List Half := ws.map (fun x => x.2) ++ List.replicate 28 0
        s.capLoad d.val c ws [destV v.toNat, destV (v.toNat + 1)]
          (upd ++ [(3, .vec (j.phys v.toNat) 0xFFFFFFFF (capLanes ws)), (3, .vec (j.phys (v.toNat + 1)) 0xFFFFFFFF side)])
    | _ => s.yOp d.val false [] 3 0 [])

/-- VLDB: one 16-bit item into every lane. -/
def execVldb (d : Die) (v : BitVec 6) (mm : Mem) (ecc : Ecc) (s : State) : Result := finish s <|
  let j := s.jv d.val
  .next (match j.access mm 2 2 with
  | .illegal => s.yOp d.val false [] 3 0 []
  | .off => s.gatedOff d.val [destV v.toNat]
  | .go ea upd =>
    match areaOf ea with
    | .dm =>
      let x : Half := BitVec.ofNat 16 (if ecc.bad.getLsbD 0 then 0 else dmHalf j.loadDm ea)
      s.dmLoad d.val ea 2 1 ecc [destV v.toNat] (upd ++ [(3, .vec (j.phys v.toNat) 0xFFFFFFFF (List.replicate 32 x))])
    | _ => s.yOp d.val false [] 3 0 [])

/-- A word-wise read of a parameter field under the agent's holding register (R332): the value, and the register after. -/
def State.wordRead (s : State) (hold : Option (Nat × Nat)) (addr : Nat) (high : Bool) : Nat × Option (Nat × Nat) :=
  let v := s.live0 addr
  if !high then (v % 2 ^ 32, some (addr, v / 2 ^ 32))
  else match hold with
    | some (a, h) => if a = addr then (h, none) else (v / 2 ^ 32, hold)
    | none => (v / 2 ^ 32, none)

/-- SLD: a word of data memory, a capture status word, or a word of a parameter field where the factory code's address
names one (`view`, log 12). -/
def execSld (d : Die) (sr : BitVec 4) (mm : Mem) (ecc : Ecc) (view : Option (Nat × Bool)) (s : State) : Result := finish s <|
  let j := s.jv d.val
  let dest := destS sr.toNat
  .next (match view with
  | some (addr, high) =>
    let r := s.wordRead j.hold addr high
    s.yOp d.val (!s.isUser d.val) [dest] 3 0 [(3, .scalar sr.toNat (BitVec.ofNat 32 r.1)), retired 3] (fun s => s)
      (fun j => { j with hold := r.2 })
  | none =>
    match j.access mm 4 4 with
    | .illegal => s.yOp d.val false [] 3 0 []
    | .off => s.gatedOff d.val [dest]
    | .go ea upd =>
      match areaOf ea with
      | .dm => s.dmLoad d.val ea 4 1 ecc [dest]
          (upd ++ [(3, .scalar sr.toNat (BitVec.ofNat 32 (eccWord j.loadDm ea (ecc.bad.getLsbD 0))))])
      | .capStatus c off =>
        if off % 16 ≥ 8 then s.yOp d.val false [] 3 0 []
        else if !s.mayCapture d.val c then (if j.issuing then s.sandboxFault d.val ea else s)
        else s.yOp d.val true [dest] 3 0
          (upd ++ [(3, .scalar sr.toNat ((s.fifo c).status (off / 16) (off % 16 / 4))), retired 3])
      | _ => s.yOp d.val false [] 3 0 [])

/-- A store of `len` bytes (R241, R250): data memory only, checked by the sandbox at issue, made at retirement. -/
def State.storeOp (s : State) (d : Nat) (mm : Mem) (len : Nat) (mk : Nat → Nat → Eff) : State :=
  let j := s.jv d
  match j.access mm len len with
  | .illegal => s.yOp d false [] 2 0 []
  | .off => s.gatedOff d []
  | .go ea upd =>
    match areaOf ea with
    | .dm =>
      if !s.mayWrite d ea len then (if j.issuing then s.sandboxFault d ea else s)
      else s.yOp d true [] 2 0 (upd ++ [(2, mk ea (j.cycle + 2)), retired 2])
    | _ => s.yOp d false [] 2 0 []

/-- VST. -/
def execVst (d : Die) (v : BitVec 6) (mm : Mem) (s : State) : Result := finish s <|
  .next (s.storeOp d.val mm 64 fun ea seen => .storeV ea seen ((s.jv d.val).rdV v))
/-- SST. -/
def execSst (d : Die) (sr : BitVec 4) (mm : Mem) (s : State) : Result := finish s <|
  .next (s.storeOp d.val mm 4 fun ea seen => .storeS ea seen ((s.jv d.val).rdS sr))

/-! ### Transfers -/

/-- VGET. -/
def execVget (d : Die) (sr : BitVec 4) (v : BitVec 6) (lane : BitVec 5) (s : State) : Result := finish s <|
  let x := ((s.jv d.val).rdV v).getD lane.toNat 0
  .next (s.yOp d.val true [destS sr.toNat] 2 0 [(2, .scalar sr.toNat (x.signExtend 32)), retired 2])
/-- VSPLAT. -/
def execVsplat (d : Die) (v : BitVec 6) (sr : BitVec 4) (s : State) : Result := finish s <|
  let j := s.jv d.val
  .next (s.yOp d.val true [destV v.toNat] 1 0
    [(1, .vec (j.phys v.toNat) 0xFFFFFFFF (List.replicate 32 ((j.rdS sr).setWidth 16))), retired 1])
/-- PGET. -/
def execPget (d : Die) (sr : BitVec 4) (p : BitVec 3) (s : State) : Result := finish s <|
  .next (s.yOp d.val true [destS sr.toNat] 2 0 [(2, .scalar sr.toNat ((s.jv d.val).rdP p)), retired 2])
/-- PSET: a write to P0 is ignored. -/
def execPset (d : Die) (sr : BitVec 4) (p : BitVec 3) (s : State) : Result := finish s <|
  .next (s.yOp d.val true [destP p.toNat] 1 0 [(1, .pred p.toNat ((s.jv d.val).rdS sr)), retired 1])

/-! ### Scalar and address operations -/

/-- Issue a scalar operation of SA and the second operand. -/
def State.sAlu (s : State) (d : Nat) (dst sa : BitVec 4) (b : Src) (f : Word → Word → Word) : State :=
  let j := s.jv d
  s.yOp d true [destS dst.toNat] 1 0 [(1, .scalar dst.toNat (f (j.rdS sa) (j.src b))), retired 1]
/-- The shift amount, bits [4:0]. -/
def shamt (b : Word) : Nat := b.toNat % 32
/-- A truth value as a word. -/
def boolWord (b : Bool) : Word := if b then 1 else 0

/-- SADD. -/
def execSadd (d : Die) (dst sa : BitVec 4) (b : Src) (s : State) : Result := finish s <| .next (s.sAlu d.val dst sa b fun x y => x + y)
/-- SSUB. -/
def execSsub (d : Die) (dst sa : BitVec 4) (b : Src) (s : State) : Result := finish s <| .next (s.sAlu d.val dst sa b fun x y => x - y)
/-- SAND. -/
def execSand (d : Die) (dst sa : BitVec 4) (b : Src) (s : State) : Result := finish s <| .next (s.sAlu d.val dst sa b fun x y => x &&& y)
/-- SOR. -/
def execSor (d : Die) (dst sa : BitVec 4) (b : Src) (s : State) : Result := finish s <| .next (s.sAlu d.val dst sa b fun x y => x ||| y)
/-- SXOR. -/
def execSxor (d : Die) (dst sa : BitVec 4) (b : Src) (s : State) : Result := finish s <| .next (s.sAlu d.val dst sa b fun x y => x ^^^ y)
/-- SSHL. -/
def execSshl (d : Die) (dst sa : BitVec 4) (b : Src) (s : State) : Result := finish s <|
  .next (s.sAlu d.val dst sa b fun x y => x <<< shamt y)
/-- SLSR. -/
def execSlsr (d : Die) (dst sa : BitVec 4) (b : Src) (s : State) : Result := finish s <|
  .next (s.sAlu d.val dst sa b fun x y => x >>> shamt y)
/-- SASR. -/
def execSasr (d : Die) (dst sa : BitVec 4) (b : Src) (s : State) : Result := finish s <|
  .next (s.sAlu d.val dst sa b fun x y => x.sshiftRight (shamt y))
/-- SMIN. -/
def execSmin (d : Die) (dst sa : BitVec 4) (b : Src) (s : State) : Result := finish s <|
  .next (s.sAlu d.val dst sa b fun x y => if x.toInt ≤ y.toInt then x else y)
/-- SMAX. -/
def execSmax (d : Die) (dst sa : BitVec 4) (b : Src) (s : State) : Result := finish s <|
  .next (s.sAlu d.val dst sa b fun x y => if x.toInt ≤ y.toInt then y else x)
/-- SMUL. -/
def execSmul (d : Die) (dst sa : BitVec 4) (b : Src) (s : State) : Result := finish s <| .next (s.sAlu d.val dst sa b fun x y => x * y)
/-- SCMPLT. -/
def execScmplt (d : Die) (dst sa : BitVec 4) (b : Src) (s : State) : Result := finish s <|
  .next (s.sAlu d.val dst sa b fun x y => boolWord (decide (x.toInt < y.toInt)))
/-- SCMPEQ. -/
def execScmpeq (d : Die) (dst sa : BitVec 4) (b : Src) (s : State) : Result := finish s <|
  .next (s.sAlu d.val dst sa b fun x y => boolWord (decide (x = y)))
/-- SLI. -/
def execSli (d : Die) (dst : BitVec 4) (imm : BitVec 22) (s : State) : Result := finish s <|
  .next (s.yOp d.val true [destS dst.toNat] 1 0 [(1, .scalar dst.toNat (imm.signExtend 32)), retired 1])
/-- SHI: the low half is kept. -/
def execShi (d : Die) (dst : BitVec 4) (imm : BitVec 16) (s : State) : Result := finish s <|
  .next (s.yOp d.val true [destS dst.toNat] 1 0
    [(1, .scalar dst.toNat (imm ++ ((s.jv d.val).rdS dst).setWidth 16)), retired 1])
/-- AMOV. -/
def execAmov (d : Die) (dst sa : BitVec 4) (b : Src) (s : State) : Result := finish s <|
  let j := s.jv d.val
  .next (s.yOp d.val true [destA dst.toNat] 1 0 [(1, .addr dst.toNat (j.rdS sa + j.src b)), retired 1])
/-- AADD. -/
def execAadd (d : Die) (dst : BitVec 4) (b : Src) (s : State) : Result := finish s <|
  let j := s.jv d.val
  .next (s.yOp d.val true [destA dst.toNat] 1 0 [(1, .addr dst.toNat (j.rdA dst + j.src b)), retired 1])
/-- AGET. -/
def execAget (d : Die) (dst sa : BitVec 4) (s : State) : Result := finish s <|
  .next (s.yOp d.val true [destS dst.toNat] 1 0 [(1, .scalar dst.toNat ((s.jv d.val).rdA sa)), retired 1])
/-- MMOV: offset registers 0 to 7. -/
def execMmov (d : Die) (dst sa : BitVec 4) (b : Src) (s : State) : Result := finish s <|
  let j := s.jv d.val
  .next (s.yOp d.val (decide (dst.toNat < 8)) [destM dst.toNat] 1 0 [(1, .offset dst.toNat (j.rdS sa + j.src b)), retired 1])
/-- CBSET. -/
def execCbset (d : Die) (dst sa sb : BitVec 4) (s : State) : Result := finish s <|
  let j := s.jv d.val
  .next (s.yOp d.val (decide (dst.toNat < 8)) [destC dst.toNat] 1 0
    [(1, .circ dst.toNat ((j.rdS sa).setWidth 20) ((j.rdS sb).setWidth 20)), retired 1])

end Sys2Proof.Machine
end

