-- ==== Sys2Proof/Machine/JoinerSys.lean ====
section
/-!
DEFINITION. Special registers, branches, repeat blocks, YIELD, publishes, captures and performance counters
(R238, R250 to R261, Tables 8-2 and 8-10).
-/

namespace Sys2Proof.Machine

/-! ### Special registers -/

/-- A special register (Table 8-2); none for a reserved index. -/
def Joiner.special (j : Joiner) (i : Nat) : Option Word :=
  match i with
  | 0 => some (BitVec.ofNat 32 (match j.rep with
      | some b => b.iter
      | none => 0))
  | 1 => some (BitVec.ofNat 32 j.rotofs)
  | 2 => some j.lr
  | 3 => some j.satf
  | 4 => some (BitVec.ofNat 32 j.cycle)
  | 5 => some (BitVec.ofNat 32 j.slotLen)
  | 6 => some j.stgMask
  | 8 => some j.epc
  | 9 => some j.icause
  | _ => none

/-- MFS: EPC and ICAUSE are illegal in USER code (R255). -/
def execMfs (d : Die) (dst sp : BitVec 4) (s : State) : Result := finish s <|
  let x := (s.jv d.val).special sp.toNat
  .next (s.yOp d.val (x.isSome && !(s.isUser d.val && decide (8 ≤ sp.toNat))) [destS dst.toNat] 2 0
    [(2, .scalar dst.toNat (x.getD 0)), retired 2])
/-- MTS: LR and SATF, and EPC in factory code (Table 8-2, R263). -/
def execMts (d : Die) (sp sa : BitVec 4) (s : State) : Result := finish s <|
  .next (s.yOp d.val (decide (sp = 2 ∨ sp = 3) || (decide (sp = 8) && !s.isUser d.val)) [destX sp.toNat] 1 0
    [(1, .special sp.toNat ((s.jv d.val).rdS sa)), retired 1])

/-! ### Branches -/

/-- BR. -/
def execBr (d : Die) (off : BitVec 16) (s : State) : Result := finish s <|
  .next (s.branchOp d.val true true ((s.jv d.val).rel off) [] [])
/-- BZ. -/
def execBz (d : Die) (sa : BitVec 4) (off : BitVec 16) (s : State) : Result := finish s <|
  let j := s.jv d.val
  .next (s.branchOp d.val true (decide (j.rdS sa = 0)) (j.rel off) [] [])
/-- BNZ. -/
def execBnz (d : Die) (sa : BitVec 4) (off : BitVec 16) (s : State) : Result := finish s <|
  let j := s.jv d.val
  .next (s.branchOp d.val true (decide (j.rdS sa ≠ 0)) (j.rel off) [] [])
/-- BNEG. -/
def execBneg (d : Die) (sa : BitVec 4) (off : BitVec 16) (s : State) : Result := finish s <|
  let j := s.jv d.val
  .next (s.branchOp d.val true (j.rdS sa).msb (j.rel off) [] [])
/-- CALL: LR takes the address of the fourth bundle after it. -/
def execCall (d : Die) (off : BitVec 16) (s : State) : Result := finish s <|
  let j := s.jv d.val
  .next (s.branchOp d.val true true (j.rel off) [destX 2] [(1, .special 2 (BitVec.ofNat 32 (j.pc + 32)))])
/-- RET. -/
def execRet (d : Die) (s : State) : Result := finish s <|
  .next (s.branchOp d.val true true (s.jv d.val).lr.toNat [] [])
/-- RETI: factory code only; interrupts are enabled again at its retirement (R261). -/
def execReti (d : Die) (s : State) : Result := finish s <|
  .next (s.branchOp d.val (!s.isUser d.val) true (s.jv d.val).epc.toNat [] [(2, .reti)])

/-! ### Repeat blocks and YIELD -/

/-- REP (R257 to R260): a scalar count of 0 skips the block, one above 1,024 is illegal. -/
def execRep (d : Die) (rot : Bool) (stg : BitVec 2) (len : BitVec 6) (cnt : RepCount) (rsz : Bool) (s : State) : Result := finish s <|
  let j := s.jv d.val
  let n := match cnt with
    | .imm n => if n = 0 then 1024 else n.toNat
    | .reg sa => (j.rdS sa).toNat
  let l := len.toNat + 1
  let b : RepBlock :=
    { start := j.pc + 8, len := l, left := (if rot then n + stg.toNat else n) - 1, pos := 0, count := n, rot := rot,
      stages := stg.toNat + 1, small := rsz }
  let enter := fun (j : Joiner) =>
    if n = 0 then { j with pc := j.pc + 8 * l }
    else if rot then { j with rotofs := 0, rotSmall := rsz }
    else j
  let legal := j.mayBranch && decide (n ≤ 1024) && (rot || !rsz)
  let t := s.yOp d.val legal [] 1 0 [retired 1] (fun s => s) enter
  .next (if legal ∧ j.issuing ∧ n ≠ 0 ∧ (t.jn d.val).slot.isSome ∧ (t.jn d.val).cycle = j.cycle + 1 then
    t.modJn d.val fun j => { j with rep := some b } else t)

/-- YIELD (R256): it retires when everything before it has, and the rest of the slot is idle. -/
def execYield (d : Die) (s : State) : Result := finish s <|
  let j := s.jn d.val
  if !j.issuing then .next s
  else if !(j.mayBranch && j.bundleOk) then .next (s.illegal d.val)
  else
    let last := j.flights.foldl (fun m f => max m f.ret) (j.cycle + max 2 j.xLat)
    let s := (s.countEv d.val 0x01 1).modJn d.val fun j =>
      let j := j.complete 0 (last - j.cycle) [retired 0]
      { j with yieldAt := some last, cycle := j.cycle + 1, xFlights := [], xDone := false, xDest := none, xLat := 0 }
    .next (s.yieldEnd d.val)

/-! ### Publishes, captures, counters -/

/-- PUB (R252): reserved kinds and pairings are illegal, an ungranted kind of a USER slot is a sandbox fault (check 1). -/
def execPub (d : Die) (sd : BitVec 4) (tgt : BitVec 5) (kind : BitVec 4) (idx : BitVec 2) (s : State) : Result := finish s <|
  let t := tgt.toNat
  let k := kind.toNat
  let legal := decide ((1 ≤ k ∧ k ≤ 7 ∧ t < 8) ∨ (k = 8 ∧ 16 ≤ t)) && decide (k = 7 ∨ idx = 0) &&
    (!s.isUser d.val || decide (t = s.runTarget d.val))
  if legal && (s.jn d.val).issuing && s.isUser d.val && !s.granted d.val t k then .next (s.sandboxFault d.val (s.jn d.val).pc)
  else .next (s.yOp d.val legal [destS sd.toNat] 2 0 [(2, .askPub sd.toNat t k idx.toNat), (2, .pub t k idx.toNat), retired 2])
/-- CAPREQ (R253). -/
def execCapreq (d : Die) (sd : BitVec 4) (tgt : BitVec 5) (point dec : BitVec 3) (sa sb : BitVec 4) (s : State) : Result := finish s <|
  let j := s.jv d.val
  let legal := isTarget tgt.toNat && (!s.isUser d.val || decide (tgt.toNat = s.runTarget d.val))
  .next (s.yOp d.val legal [destS sd.toNat] 2 0
    [(2, .askCap sd.toNat tgt.toNat point.toNat dec.toNat (j.rdS sa) (j.rdS sb)),
     (2, .capreq tgt.toNat point.toNat dec.toNat (j.rdS sa) (j.rdS sb)), retired 2])
/-- CREL (R253). -/
def execCrel (d : Die) (tgt : BitVec 5) (bank : Bool) (s : State) : Result := finish s <|
  let legal := isTarget tgt.toNat && (!s.isUser d.val || decide (tgt.toNat = s.runTarget d.val))
  .next (s.yOp d.val legal [] 2 0 [(2, .crel tgt.toNat bank.toNat), retired 2])

/-- PC_CYCLE at the running cycle (R227): the field holds the count at the last boundary. -/
def State.pcCycle (s : State) (d : Nat) : Nat :=
  s.rd (JNR.PC_CYCLE d) + 64 * (s.jn d).slot.getD 0 + (s.jn d).cycle
/-- May the running code read counter bit `k` of COUNTER_GRANT (R228)? -/
def State.mayCount (s : State) (d k : Nat) : Bool := !s.isUser d || s.bit (JNR.COUNTER_GRANT d) k
/-- PC_VALk, zero where it is not granted (R228). -/
def State.pcVal (s : State) (d k : Nat) : Nat := if s.mayCount d k then s.rd (JNR.PC_VAL d k) else 0

/-- RDPC (R254). -/
def execRdpc (d : Die) (sd kk : BitVec 4) (s : State) : Result := finish s <|
  let k := kk.toNat
  let r := sd.toNat
  let two := fun (lo hi : Nat) => s.yOp d.val (decide (r % 2 = 0)) [destS r, destS (r + 1)] 2 0
    [(2, .scalar r (BitVec.ofNat 32 lo)), (2, .scalar (r + 1) (BitVec.ofNat 32 hi)), retired 2]
  .next (
    if k < 8 then s.yOp d.val true [destS r] 2 0 [(2, .scalar r (BitVec.ofNat 32 (s.pcVal d.val k))), retired 2]
    else if k = 8 then
      (let v := if s.mayCount d.val 8 then s.pcCycle d.val else 0
       two (v % 2 ^ 32) (v / 2 ^ 32))
    else if k ≤ 12 then two (s.pcVal d.val (2 * (k - 9))) (s.pcVal d.val (2 * (k - 9) + 1))
    else s.yOp d.val false [] 2 0 [])

end Sys2Proof.Machine
end

