-- ==== Sys2Proof/Machine/JoinerVector.lean ====
section
/-!
DEFINITION. X syllables: the vector ALU, the MAC group and the normalisation group (R247 to R249, Table 8-9). A
meaning issues the syllable into the current bundle of Joiner `d`; the bundle's Y syllable completes it.
-/

namespace Sys2Proof.Machine

/-- Is the syllable gated off by a stage of a ROT block (R259)? -/
def Joiner.stageOff (j : Joiner) (pred : BitVec 3) : Bool :=
  j.inRot && decide (4 ≤ pred.toNat) && !j.stgMask.getLsbD (pred.toNat - 4)
/-- The lanes an operation that writes every lane writes: none while gated off. -/
def Joiner.everyLane (j : Joiner) (pred : BitVec 3) : Word := if j.stageOff pred then 0 else 0xFFFFFFFF

/-- Issue an operation on 16-bit lanes whose exact results saturate (R247). -/
def State.vSat (s : State) (d : Nat) (pred : BitVec 3) (vd : BitVec 6) (lat : Nat) (xs : List Int) (legal : Bool := true) :
    State :=
  let j := s.jv d
  let mask := j.laneMask pred
  s.xOp d legal (destV vd.toNat) lat false
    [(lat, .vec (j.phys vd.toNat) mask (satLanes 16 xs)), (lat, .sat (satBit 4 (clamps 16 mask xs)))]

/-- Issue an operation on 16-bit lanes that does not saturate, with the lanes it writes. -/
def State.vPut (s : State) (d : Nat) (mask : Word) (vd : BitVec 6) (lat : Nat) (xs : List Half) (legal : Bool := true) :
    State := s.xOp d legal (destV vd.toNat) lat false [(lat, .vec ((s.jv d).phys vd.toNat) mask xs)]

/-- Lane-wise application of a function of two vectors. -/
def State.zipV {α : Type} (s : State) (d : Nat) (va vb : BitVec 6) (f : Half → Half → α) : List α :=
  List.zipWith f ((s.jv d).rdV va) ((s.jv d).rdV vb)
/-- Lane-wise application of a function of one vector. -/
def State.mapV {α : Type} (s : State) (d : Nat) (va : BitVec 6) (f : Half → α) : List α := ((s.jv d).rdV va).map f

/-- Issue a compare (R247): a predicate, zero in disabled lanes; P0 is no destination (R263). -/
def State.vCmp (s : State) (d : Nat) (pred pd : BitVec 3) (bs : List Bool) : State :=
  let j := s.jv d
  s.xOp d (decide (pd ≠ 0)) (destP pd.toNat) 1 false
    (if j.stageOff pred then [] else [(1, .pred pd.toNat (predWord (j.laneMask pred) bs))])

/-- Issue a MAC-group instruction (R248): latency 1 to the group, 2 to other readers. -/
def State.vMac (s : State) (d : Nat) (pred : BitVec 3) (acc : BitVec 2) (xs : List Int) : State :=
  let mask := (s.jv d).laneMask pred
  let v : List Acc := satLanes 40 xs
  s.xOp d true (destAcc acc.toNat) 2 true
    [(1, .accFwd acc.toNat mask v), (2, .acc acc.toNat mask v), (2, .sat (satBit acc.toNat (clamps 40 mask xs)))]

/-- Products of two vectors. -/
def State.prods (s : State) (d : Nat) (va vb : BitVec 6) : List Int := s.zipV d va vb fun a b => a.toInt * b.toInt
/-- An accumulator, as the MAC group reads it, plus terms. -/
def State.accPlus (s : State) (d : Nat) (acc : BitVec 2) (xs : List Int) : List Int :=
  List.zipWith (fun (a : Acc) x => a.toInt + x) ((s.jv d).rdAccF acc) xs

/-! ### ALU -/

/-- NOP (R250, Table 8-9): an X NOP changes nothing; a Y NOP completes the bundle. -/
def execNop (d : Die) (y : Bool) (s : State) : Result := finish s <| .next (if y then s.yOp d.val true [] 0 0 [] else s)
/-- VADD. -/
def execVadd (d : Die) (pred : BitVec 3) (vd va vb : BitVec 6) (s : State) : Result := finish s <|
  .next (s.vSat d.val pred vd 1 (s.zipV d.val va vb fun a b => a.toInt + b.toInt))
/-- VSUB. -/
def execVsub (d : Die) (pred : BitVec 3) (vd va vb : BitVec 6) (s : State) : Result := finish s <|
  .next (s.vSat d.val pred vd 1 (s.zipV d.val va vb fun a b => a.toInt - b.toInt))
/-- VADDW. -/
def execVaddw (d : Die) (pred : BitVec 3) (vd va vb : BitVec 6) (s : State) : Result := finish s <|
  .next (s.vPut d.val ((s.jv d.val).laneMask pred) vd 1 (s.zipV d.val va vb fun a b => a + b))
/-- VSUBW. -/
def execVsubw (d : Die) (pred : BitVec 3) (vd va vb : BitVec 6) (s : State) : Result := finish s <|
  .next (s.vPut d.val ((s.jv d.val).laneMask pred) vd 1 (s.zipV d.val va vb fun a b => a - b))
/-- VMUL. -/
def execVmul (d : Die) (pred : BitVec 3) (vd va vb : BitVec 6) (md : BitVec 5) (s : State) : Result := finish s <|
  .next (s.vSat d.val pred vd 2 ((s.prods d.val va vb).map fun x => rnd x md.toNat))
/-- VMIN. -/
def execVmin (d : Die) (pred : BitVec 3) (vd va vb : BitVec 6) (s : State) : Result := finish s <|
  .next (s.vPut d.val ((s.jv d.val).laneMask pred) vd 1 (s.zipV d.val va vb fun a b => if a.toInt ≤ b.toInt then a else b))
/-- VMAX. -/
def execVmax (d : Die) (pred : BitVec 3) (vd va vb : BitVec 6) (s : State) : Result := finish s <|
  .next (s.vPut d.val ((s.jv d.val).laneMask pred) vd 1 (s.zipV d.val va vb fun a b => if a.toInt ≤ b.toInt then b else a))
/-- VABS. -/
def execVabs (d : Die) (pred : BitVec 3) (vd va : BitVec 6) (s : State) : Result := finish s <|
  .next (s.vSat d.val pred vd 1 (s.mapV d.val va fun a => (a.toInt.natAbs : Int)))
/-- VAND. -/
def execVand (d : Die) (pred : BitVec 3) (vd va vb : BitVec 6) (s : State) : Result := finish s <|
  .next (s.vPut d.val ((s.jv d.val).laneMask pred) vd 1 (s.zipV d.val va vb fun a b => a &&& b))
/-- VOR. -/
def execVor (d : Die) (pred : BitVec 3) (vd va vb : BitVec 6) (s : State) : Result := finish s <|
  .next (s.vPut d.val ((s.jv d.val).laneMask pred) vd 1 (s.zipV d.val va vb fun a b => a ||| b))
/-- VXOR. -/
def execVxor (d : Die) (pred : BitVec 3) (vd va vb : BitVec 6) (s : State) : Result := finish s <|
  .next (s.vPut d.val ((s.jv d.val).laneMask pred) vd 1 (s.zipV d.val va vb fun a b => a ^^^ b))
/-- VSHL: a shift of 16 or more is a reserved code (R263). -/
def execVshl (d : Die) (pred : BitVec 3) (vd va : BitVec 6) (md : BitVec 5) (s : State) : Result := finish s <|
  .next (s.vSat d.val pred vd 1 (s.mapV d.val va fun a => a.toInt * ((2 ^ md.toNat : Nat) : Int)) (decide (md.toNat < 16)))
/-- VASR. -/
def execVasr (d : Die) (pred : BitVec 3) (vd va : BitVec 6) (md : BitVec 5) (s : State) : Result := finish s <|
  .next (s.vPut d.val ((s.jv d.val).laneMask pred) vd 1 (s.mapV d.val va fun a => a.sshiftRight md.toNat) (decide (md.toNat < 16)))
/-- VLSR. -/
def execVlsr (d : Die) (pred : BitVec 3) (vd va : BitVec 6) (md : BitVec 5) (s : State) : Result := finish s <|
  .next (s.vPut d.val ((s.jv d.val).laneMask pred) vd 1 (s.mapV d.val va fun a => a >>> md.toNat) (decide (md.toNat < 16)))
/-- A signed lane clamped to 0 … `hi`. -/
def clampLane (hi : Nat) (b : Half) : Nat := min hi b.toInt.toNat
/-- VSHLV. -/
def execVshlv (d : Die) (pred : BitVec 3) (vd va vb : BitVec 6) (s : State) : Result := finish s <|
  .next (s.vSat d.val pred vd 1 (s.zipV d.val va vb fun a b => a.toInt * ((2 ^ clampLane 16 b : Nat) : Int)))
/-- VASRV. -/
def execVasrv (d : Die) (pred : BitVec 3) (vd va vb : BitVec 6) (s : State) : Result := finish s <|
  .next (s.vPut d.val ((s.jv d.val).laneMask pred) vd 1 (s.zipV d.val va vb fun a b => a.sshiftRight (clampLane 15 b)))
/-- VSEL: writes every lane, PRED selects (R247). -/
def execVsel (d : Die) (pred : BitVec 3) (vd va vb : BitVec 6) (s : State) : Result := finish s <|
  let j := s.jv d.val
  .next (s.vPut d.val (j.everyLane pred) vd 1 (blend 0 (j.laneMask pred) (j.rdV va) (j.rdV vb)))
/-- VMOV. -/
def execVmov (d : Die) (pred : BitVec 3) (vd va : BitVec 6) (s : State) : Result := finish s <|
  .next (s.vPut d.val ((s.jv d.val).laneMask pred) vd 1 ((s.jv d.val).rdV va))
/-- VLDI. -/
def execVldi (d : Die) (pred : BitVec 3) (vd : BitVec 6) (imm : BitVec 16) (s : State) : Result := finish s <|
  .next (s.vPut d.val ((s.jv d.val).laneMask pred) vd 1 (List.replicate 32 imm))
/-- VCMPLT. -/
def execVcmplt (d : Die) (pred pd : BitVec 3) (va vb : BitVec 6) (s : State) : Result := finish s <|
  .next (s.vCmp d.val pred pd (s.zipV d.val va vb fun a b => decide (a.toInt < b.toInt)))
/-- VCMPLE. -/
def execVcmple (d : Die) (pred pd : BitVec 3) (va vb : BitVec 6) (s : State) : Result := finish s <|
  .next (s.vCmp d.val pred pd (s.zipV d.val va vb fun a b => decide (a.toInt ≤ b.toInt)))
/-- VCMPEQ. -/
def execVcmpeq (d : Die) (pred pd : BitVec 3) (va vb : BitVec 6) (s : State) : Result := finish s <|
  .next (s.vCmp d.val pred pd (s.zipV d.val va vb fun a b => decide (a = b)))

/-! ### MAC group -/

/-- VMAC. -/
def execVmac (d : Die) (pred : BitVec 3) (acc : BitVec 2) (va vb : BitVec 6) (s : State) : Result := finish s <|
  .next (s.vMac d.val pred acc (s.accPlus d.val acc (s.prods d.val va vb)))
/-- VMSU. -/
def execVmsu (d : Die) (pred : BitVec 3) (acc : BitVec 2) (va vb : BitVec 6) (s : State) : Result := finish s <|
  .next (s.vMac d.val pred acc (s.accPlus d.val acc ((s.prods d.val va vb).map fun x => -x)))
/-- VMPY. -/
def execVmpy (d : Die) (pred : BitVec 3) (acc : BitVec 2) (va vb : BitVec 6) (s : State) : Result := finish s <|
  .next (s.vMac d.val pred acc (s.prods d.val va vb))
/-- VMACB: one lane of vb for all. -/
def execVmacb (d : Die) (pred : BitVec 3) (acc : BitVec 2) (va vb : BitVec 6) (md : BitVec 5) (s : State) : Result := finish s <|
  let b := (((s.jv d.val).rdV vb).getD md.toNat 0).toInt
  .next (s.vMac d.val pred acc (s.accPlus d.val acc (s.mapV d.val va fun a => a.toInt * b)))
/-- VCLRA. -/
def execVclra (d : Die) (pred : BitVec 3) (acc : BitVec 2) (s : State) : Result := finish s <|
  .next (s.vMac d.val pred acc (List.replicate 32 0))
/-- VRSUMA: every lane is written; PRED picks the summands (R247). -/
def execVrsuma (d : Die) (pred : BitVec 3) (acc : BitVec 2) (s : State) : Result := finish s <|
  let j := s.jv d.val
  let mask := j.laneMask pred
  let sum := (blend 0 mask (lanes (j.rdAccV acc)) (List.replicate 32 0)).sum
  let v : List Acc := satLanes 40 (sum :: List.replicate 31 0)
  let all := j.everyLane pred
  .next (s.xOp d.val true (destAcc acc.toNat) 3 false
    [(3, .accFwd acc.toNat all v), (3, .acc acc.toNat all v), (3, .sat (satBit acc.toNat (clamps 40 all [sum])))])

/-! ### Extraction and normalisation -/

/-- VEXT. -/
def execVext (d : Die) (pred : BitVec 3) (vd : BitVec 6) (acc : BitVec 2) (md : BitVec 5) (s : State) : Result := finish s <|
  .next (s.vSat d.val pred vd 2 ((lanes ((s.jv d.val).rdAccV acc)).map fun x => rnd x md.toNat))
/-- VEXTV. -/
def execVextv (d : Die) (pred : BitVec 3) (vd : BitVec 6) (acc : BitVec 2) (vb : BitVec 6) (s : State) : Result := finish s <|
  let j := s.jv d.val
  .next (s.vSat d.val pred vd 2 (List.zipWith (fun (a : Acc) b => rnd a.toInt (clampLane 39 b)) (j.rdAccV acc) (j.rdV vb)))
/-- VNORM. -/
def execVnorm (d : Die) (pred : BitVec 3) (vd va : BitVec 6) (s : State) : Result := finish s <|
  .next (s.vPut d.val ((s.jv d.val).laneMask pred) vd 2 (s.mapV d.val va fun a => BitVec.ofNat 16 (redundant a)))
/-- VNORMA. -/
def execVnorma (d : Die) (pred : BitVec 3) (vd : BitVec 6) (acc : BitVec 2) (s : State) : Result := finish s <|
  .next (s.vPut d.val ((s.jv d.val).laneMask pred) vd 2
    (((s.jv d.val).rdAccV acc).map fun a => BitVec.ofNat 16 (redundant a)))
/-- VEXP: every lane of vd (Table 8-9). -/
def execVexp (d : Die) (pred : BitVec 3) (vd va : BitVec 6) (s : State) : Result := finish s <|
  let j := s.jv d.val
  let m := (minEnabled (j.laneMask pred) (s.mapV d.val va redundant)).getD 15
  .next (s.vPut d.val (j.everyLane pred) vd 3 (List.replicate 32 (BitVec.ofNat 16 m)))
/-- VEXPA: every lane of vd (Table 8-9). -/
def execVexpa (d : Die) (pred : BitVec 3) (vd : BitVec 6) (acc : BitVec 2) (s : State) : Result := finish s <|
  let j := s.jv d.val
  let m := match minEnabled (j.laneMask pred) ((j.rdAccV acc).map redundant) with
    | none => 0
    | some x => 24 - x
  .next (s.vPut d.val (j.everyLane pred) vd 3 (List.replicate 32 (BitVec.ofNat 16 m)))

end Sys2Proof.Machine
end

