-- ==== Sys2Proof/Machine/LineLane.lean ====
section
/-!
DEFINITION. Line lane commands: loss of signal and lock, relinks, bring-up, calibration, the transmit side, TX_DIS and
the receive framer (R68, R69, R74, R77 to R82, R107, R110, R111, R151, R152, R160, R163, R270, R273, R276, R277).
-/

namespace Sys2Proof.Machine

/-! ### Signal, lock and relink -/

/-- Finish a receive calibration (R269, R273, R277, R288): outcome 0 converged, 1 CAL_DEGRADED, which is not valid; logged
with its method. -/
def State.rxCalEnd (s : State) (n meth outcome : Nat) : State :=
  let s := s.wr (LRX.CAL_METHOD n) meth
  let s := s.lineLog n 0x1006 (meth * 256 + outcome) (decide (outcome = 1))
  let s := (s.modRx n fun r => { r with okTicks := 0 }).wrBit (s.rxCalAddr n) n (decide (outcome = 0))
  if outcome = 0 then s.wrBit (LRX.FLAGS n) 2 false
  else (s.wrBit (LRX.FLAGS n) 2 true).inc DEV.CAL_DEG_CNT

/-- LOS_DECLARE (R74, R77). -/
def execLosDeclare (n : Lane) (s : State) : Result := finish s <|
  let n := n.val
  let st := s.rd (LRX.STATE n)
  let r := s.rxL n
  if st = 0 ∨ s.bit (LRX.FLAGS n) 0 ∨ r.dark < s.rd (LRX.LOS_TICKS n) then .next s
  else
    let s := (s.wrBit (LRX.FLAGS n) 0 true).inc (LRX.LOS_CNT n)
    let s := s.lineLog n 0x1001 (s.rd (LRX.LOS_CNT n))
    let s := s.capEvent n 1 (s.rd (OBS.CAP_WPOS n))
    let s := s.modRx n fun r => { r with lofTicks := 0 }
    .next (match st with
    | 1 =>
      if r.calMeth = 2 then
        (if ticksSince (s.nowL n) r.calT + s.msTicks 40 ≤ s.msTicks 450 ∧ !s.bit DEV.CALSRC_FAIL n then
          s.modRx n fun r => { r with calMeth := 1 }
        else (s.rxCalEnd n 2 1).rxStep3 n)
      else s
    | 2 =>
      if r.relinkT.isSome ∨ r.tracked then (s.modRx n fun r => { r with holdLos := true }).rxHold n
      else s.rxStep3 n
    | 3 => (s.modRx n fun r => { r with holdLos := true }).rxHold n
    | 4 => s.modRx n fun r => { r with holdLos := true }
    | _ => s)

/-- LOS_CLEAR (R74, R77, R273). -/
def execLosClear (n : Lane) (s : State) : Result := finish s <|
  let n := n.val
  if !s.bit (LRX.FLAGS n) 0 ∨ (s.rxL n).lit < 2 then .next s
  else
    let s := (s.wrBit (LRX.FLAGS n) 0 false).modRx n fun r => { r with holdLos := false }
    .next (match s.rd (LRX.STATE n) with
    | 1 => if (s.rxL n).calMeth = 3 then (s.modRx n fun r => { r with calMeth := 2 }).inc DEV.CAL_BG_CNT else s
    | 2 => if (s.rxL n).step = 3 then s.modRx n fun r => { r with step := 4, lightT := s.nowL n, cleanTicks := 0 } else s
    | 4 => s.tryRelink n 0
    | _ => s)

/-- LOL_DECLARE (R69, R77): |F| above 100 ppm whatever the state, or the metric in TRACK. A lane outside ACQUIRE and TRACK
keeps its state, and its flag is raised once; in HOLD the LOL is one more cause. Where the conditions of LOS hold in the
same tick, LOS is declared instead (R83). -/
def execLolDeclare (n : Lane) (s : State) : Result := finish s <|
  let n := n.val
  let st := s.rd (LRX.STATE n)
  let r := s.rxL n
  let run := decide (st = 2 ∨ st = 3)
  let due := r.overFreq || decide (st = 3 ∧ r.lolTicks ≥ 16)
  if st ≠ 0 ∧ due ∧ (run ∨ !s.bit (LRX.FLAGS n) 1) ∧ !s.bit (LRX.FLAGS n) 0 ∧ r.dark < s.rd (LRX.LOS_TICKS n) then
    let s := (s.wrBit (LRX.FLAGS n) 1 true).inc (LRX.LOL_CNT n)
    let s := s.lineLog n 0x1002 (s.rd (LRX.LOL_CNT n))
    let s := s.capEvent n 2 (s.rd (OBS.CAP_WPOS n))
    let s := if run ∨ st = 4 then s.modRx n fun r => { r with holdLol := true, lolByFreq := r.overFreq, lolAt := s.nowL n } else s
    .next (if run then s.rxHold n else s)
  else .next s

/-- RELINK_FALLBACK (R82): 20 ms after the trigger. -/
def execRelinkFallback (n : Lane) (s : State) : Result := finish s <|
  let n := n.val
  let r := s.rxL n
  if s.rd (LRX.STATE n) = 2 ∧ r.relinkT.isSome ∧ !r.fellBack then
    let s := ((s.inc (LRX.RELINK_FALLBACK n)).lineLog n 0x1008 0).conservative n 4
    let s := (s.zeroWrite n .ctx).wr (LRX.TR_ROW n) 0
    .next (s.modRx n fun r => { r with fellBack := true, step := 14, dwell := 0, goodTicks := 0, consOwed := true })
  else .next s

/-- RELINK_FAIL_TIMEOUT (R82): a further 1.1 s. -/
def execRelinkFailTimeout (n : Lane) (s : State) : Result := finish s <|
  let r := s.rxL n.val
  if s.rd (LRX.STATE n.val) = 2 ∧ r.relinkT.isSome ∧ r.fellBack then .next (s.rxFail n.val) else .next s

/-- TR_ROW_ADVANCE (R68): the loop leaves a row after its DWELL ticks, in acquisition and, where a commit has changed the
table, after it. -/
def execTrRowAdvance (n : Lane) (s : State) : Result := finish s <|
  let n := n.val
  let r := s.rxL n
  let dw := s.dwellNow n
  if s.rowRuns n ∧ dw ≤ r.dwell then
    let s := (s.wr (LRX.TR_ROW n) (min 7 (s.rd (LRX.TR_ROW n) + 1))).modRx n fun r => { r with dwell := 0 }
    .next (if s.dwellNow n = 0 ∧ (r.step = 5 ∨ r.step = 14) then s.modRx n fun r => { r with step := r.step + 1 } else s)
  else .next s

/-- TRACK_ENTRY (R80): 64 consecutive good ticks. -/
def execTrackEntry (n : Lane) (s : State) : Result := finish s <|
  let n := n.val
  let r := s.rxL n
  if s.rd (LRX.STATE n) = 2 ∧ 64 ≤ r.goodTicks then
    let s := s.setRxState n 3
    let s := s.lineLog n 0x1004 (s.sinceL n (r.relinkT.getD r.bringT))
    let s := s.wrBit (LRX.FLAGS n) 1 false
    let s := s.modRx n fun r => { r with tracked := true, relinkT := none, step := 0, lolTicks := 0, okTicks := 0, fellBack := false }
    .next (((pairOf n).foldl (fun s k => s.modHost k fun h => { h with lineSeen := true }) s).hostClock n)
  else .next s

/-! ### Receive calibration and bring-up -/

/-- Is the photodiode reading of a lane's monitor channel, where it has one, at or below DARK_PD_MAX in every step that
converts it (R270)? Where no step does, the reading is `pd` (log 184). -/
def State.darkReading (s : State) (n pd : Nat) : Bool :=
  let ch := s.sys.bundle.darkCh n
  let steps := (List.range (s.rd HK.SEQ_LEN)).filter fun k => decide (bits (s.rd (HK.STEP k)) 4 0 = ch)
  decide (ch = 0xFF) || (if steps = [] then decide (pd ≤ s.sys.bundle.darkMax n)
    else steps.all fun k => decide (s.rd (HK.RESULT k) / 16 ≤ s.sys.bundle.darkMax n))

/-- DARK_CHECK_DONE (R270, R273): after the first 4 ticks of CAL, on the detector samples of the four and the photodiode. -/
def execDarkCheckDone (n : Lane) (pd : BitVec 12) (s : State) : Result := finish s <|
  let n := n.val
  let r := s.rxL n
  if s.rd (LRX.STATE n) = 1 ∧ r.calMeth = 0 ∧ 4 ≤ s.sinceL n r.calT then
    if r.black < 4 ∨ !s.darkReading n pd.toNat then .next ((s.modRx n fun r => { r with calMeth := 2 }).inc DEV.CAL_BG_CNT)
    else .next (s.modRx n fun r => { r with calMeth := if s.bit DEV.CALSRC_FAIL n then 3 else 1 })
  else .next s

/-- What a method finds in its measurements: the dark method of all slices, or the background method against those in
service (R271, R272). -/
def State.rxCal (s : State) (n meth : Nat) (first again : List SliceMeas) : SliceCal :=
  if meth = 1 then darkCal (s.rxL n).slices first again
  else liveCal (s.rxL n).slices (s.servingSlices n) first again
/-- Slices whose required word lies outside R58 are retired by a unit commit (R274). -/
def State.retireSlices (s : State) (n : Nat) (l : List Nat) : State :=
  l.foldl (fun s i => s.unitJoin ⟨.slice, n, i, none, none, none⟩) s
/-- CAL ends and bring-up goes on, on the words found; with CALSRC failed, words that did not converge are not taken
(R273). -/
def State.rxCalDone (s : State) (n meth : Nat) (cal : Option SliceCal) (degraded : Bool) : State :=
  let keep := degraded && s.bit DEV.CALSRC_FAIL n
  let s := match cal with
    | some c => if keep then s else s.modRx n fun r => { r with slices := c.words }
    | none => s
  ((s.rxCalEnd n meth degraded.toNat).rxStep3 n).retireSlices n ((cal.map (·.failed)).getD [])

/-- RX_CAL_COMPLETE (R271 to R274, R277): the method has measured every slice twice, for its words and for their
verification; a dark method that does not converge while the signal detector is asserted (`lit`) is followed by the
background method. Beside
traffic, a measurement is what the SLICE publishes are held to, and the CALIBRATE ends when the words in service meet
Table 9-4. -/
def execRxCalComplete (n : Lane) (first again : List SliceMeas) (lit : Bool) (s : State) : Result := finish s <|
  if !(WellFormed.slices first && WellFormed.slices again) then .refused (.illFormed "RX_CAL_COMPLETE")
  else
    let n := n.val
    let r := s.rxL n
    let st := s.rd (LRX.STATE n)
    if st = 1 ∧ (r.calMeth = 1 ∨ r.calMeth = 2) then
      let c := s.rxCal n r.calMeth first again
      if r.calMeth = 1 ∧ c.degraded ∧ lit then .next ((s.modRx n fun r => { r with calMeth := 2 }).inc DEV.CAL_BG_CNT)
      else .next (s.rxCalDone n r.calMeth (some c) c.degraded)
    else if st = 3 ∧ r.bgCal.isSome then
      let s := (s.modRecipe n fun x => { x with meas := again }).retireSlices n (s.rxCal n 2 first again).failed
      if s.slicesNear n then
        let s := (s.rxCalEnd n 2 0).modRx n fun r => { r with bgCal := none }
        .next (match s.findOp 0x30 n with
        | some o => (s.ok o.ref [2, 0, 0, 0]).endOp o.ref.rid
        | none => s)
      else .next s
    else .next s

/-- RX_CAL_TIMEOUT (R273): at 450 ms of CAL, on the best words of what has been measured; where no method ran, the words
and CAL_METHOD stay. -/
def execRxCalTimeout (n : Lane) (found : List SliceMeas) (s : State) : Result := finish s <|
  if !(found.isEmpty || WellFormed.slices found) then .refused (.illFormed "RX_CAL_TIMEOUT")
  else
    let n := n.val
    let r := s.rxL n
    if s.rd (LRX.STATE n) = 1 then
      .next (if r.calMeth = 1 ∨ r.calMeth = 2 then
          s.rxCalDone n r.calMeth (if found = [] then none else some (s.rxCal n r.calMeth found found)) true
        else s.rxCalDone n (s.rd (LRX.CAL_METHOD n)) none true)
    else .next s

/-- BG_CALIBRATE_TIMEOUT (R277): 400 ms beside traffic. -/
def execBgCalibrateTimeout (n : Lane) (s : State) : Result := finish s <|
  let n := n.val
  if (s.rxL n).bgCal.isSome then
    let s := (s.rxCalEnd n 2 1).modRx n fun r => { r with bgCal := none }
    .next (match s.findOp 0x30 n with
    | some o => (s.ok o.ref [2, 1, 0, 0]).endOp o.ref.rid
    | none => s)
  else .next s

/-- COARSE_GAIN_DONE (Table 2-10): 64 consecutive ticks without CLIP. -/
def execCoarseGainDone (n : Lane) (s : State) : Result := finish s <|
  let r := s.rxL n.val
  if s.rd (LRX.STATE n.val) = 2 ∧ r.step = 4 ∧ 64 ≤ r.cleanTicks then
    .next (s.modRx n.val fun r => { r with step := if s.dwellNow n.val = 0 then 6 else 5, dwell := 0 })
  else .next s

/-- COARSE_GAIN_TIMEOUT (Table 2-10): 5 ms from light. -/
def execCoarseGainTimeout (n : Lane) (s : State) : Result := finish s <|
  if s.rd (LRX.STATE n.val) = 2 ∧ (s.rxL n.val).step = 4 then
    .next (s.modRx n.val fun r => { r with step := if s.dwellNow n.val = 0 then 6 else 5, dwell := 0 })
  else .next s

/-- RX_BRINGUP_TIMEOUT (Table 2-10): 1.1 s from T without TRACK. -/
def execRxBringupTimeout (n : Lane) (s : State) : Result := finish s <|
  let r := s.rxL n.val
  if s.rd (LRX.STATE n.val) = 2 ∧ r.relinkT.isNone ∧ 4 ≤ r.step then .next (s.rxFail n.val) else .next s

/-! ### Transmit side -/

/-- A transmit calibration that does not make the lane unusable ends (R276, R288): bring-up goes on. -/
def State.txCalEnd (s : State) (n : Nat) (trims : List Nat) (degraded : Bool) : State :=
  let s := s.wrList (LTX.SUBDAC_TRIM n 0) trims
  let s := s.lineLog n 0x1102 degraded.toNat degraded
  let s := if degraded then (s.wrBit (LTX.FLAGS n) 2 true).inc DEV.CAL_DEG_CNT
    else (s.wrBit (LTX.FLAGS n) 2 false).wrBit (s.txCalAddr n) n true
  (s.modTx n fun t => { t with okEvals := 0 }).txStep3 n

/-- TX_CAL_COMPLETE (R276, R99, Table 9-5): the sub-DACs have been measured for their trims and again for verification, and
the span at codes ±63 sets the swing reference trim. A sub-DAC out of range fails the side. -/
def execTxCalComplete (n : Lane) (first again : List TrimMeas) (span : Nat) (s : State) : Result := finish s <|
  if !(WellFormed.subDacs first && WellFormed.subDacs again) then .refused (.illFormed "TX_CAL_COMPLETE")
  else if s.rd (LTX.STATE n.val) = 1 ∧ (s.txL n.val).step = 2 then
    let fits := trimFits first
    let words := fits.map (·.trimWord)
    .next (if fits.all (·.trimOk) then
        (s.modTx n.val fun t => { t with swingTrim := swingTrim (s.rd (LTX.SWING n.val)) span }).txCalEnd n.val words
          !(trimsNear again words)
      else s.txFail n.val 1)
  else .next s

/-- TX_CAL_TIMEOUT (Table 3-9): 20 ms, on the best trims of what has been measured. -/
def execTxCalTimeout (n : Lane) (found : List TrimMeas) (s : State) : Result := finish s <|
  if !(found.isEmpty || WellFormed.subDacs found) then .refused (.illFormed "TX_CAL_TIMEOUT")
  else if s.rd (LTX.STATE n.val) = 1 ∧ (s.txL n.val).step = 2 then
    let fits := trimFits found
    .next (if fits.all (·.trimOk) then
        s.txCalEnd n.val (if found = [] then s.rdList (LTX.SUBDAC_TRIM n.val 0) 4 else fits.map (·.trimWord)) true
      else s.txFail n.val 1)
  else .next s

/-- TX_OUTPUT_ENABLE (Table 3-9): 64 ticks after step 3 began. -/
def execTxOutputEnable (n : Lane) (s : State) : Result := finish s <|
  let t := s.txL n.val
  if s.rd (LTX.STATE n.val) = 1 ∧ t.step = 3 ∧ s.passed (dieOfLine n.val) t.step3T 64 then .next (s.txOn n.val) else .next s

/-! ### Framer, fill and host-code taps -/

/-- FRAME_LOCK (R151): an offset has passed two consecutive ticks. -/
def execFrameLock (n : Lane) (s : State) : Result := finish s <|
  let n := n.val
  match (s.rxL n).passedTwice with
  | o :: _ =>
    if s.rd (FEC.FRAME_STATE n) = 1 then
      let s := (s.wr (FEC.FRAME_STATE n) 2).wrBit (FEC.FLAGS n) 0 false
      .next (s.modRx n fun r => { r with
        offset := o, passed := [], passedTwice := [], cands := [], lofTicks := 0, winBlocks := 0, winBad := 0, winDone := none
        late := none })
    else .next s
  | [] => .next s

/-- The hunt starts afresh (R151, R152): fill is no longer recognised. -/
def State.huntAgain (s : State) (n : Nat) : State :=
  let s := (s.wr (FEC.FRAME_STATE n) 1).wrBit (FEC.FLAGS n) 1 false
  (s.modRx n fun r => { r with candBase := 0, cands := [], passed := [], passedTwice := [], lofTicks := 0, outValid := false
                               winDone := none, late := none }).lossCheck n

/-- LOF_DECLARE (R152); where the conditions of LOS hold in the same tick, LOS is declared instead (R173). -/
def execLofDeclare (n : Lane) (s : State) : Result := finish s <|
  let n := n.val
  if s.rd (FEC.FRAME_STATE n) = 2 ∧ 4 ≤ (s.rxL n).lofTicks ∧ !s.bit (LRX.FLAGS n) 0 ∧
      (s.rxL n).dark < s.rd (LRX.LOS_TICKS n) then
    let s := (s.wrBit (FEC.FLAGS n) 0 true).inc (FEC.LOF_CNT n)
    let s := s.lineLog n 0x1301 (s.rd (FEC.LOF_CNT n))
    .next ((s.capEvent n 3 (s.rd (OBS.CAP_WPOS n))).huntAgain n)
  else .next s

/-- FILL_WINDOW_END (R160): 512 or fewer disagreements are fill; line loss begins at the next boundary (R194). -/
def execFillWindowEnd (n : Lane) (s : State) : Result := finish s <|
  let n := n.val
  match (s.rxL n).winDone with
  | none => .next s
  | some bad =>
    let s := s.modRx n fun r => { r with winDone := none }
    if s.rd (FEC.FRAME_STATE n) = 2 then .next (s.wrBit (FEC.FLAGS n) 1 (decide (bad ≤ 512))) else .next s

/-- HOST_TAP_ALIGN (R163): the next codeword group begins this many host symbols behind the newest one of each lane. -/
def execHostTapAlign (r : Region) (found : TapFind) (s : State) : Result := finish s <|
  if !WellFormed.tapLead found.lead then .refused (.illFormed "HOST_TAP_ALIGN")
  else .next (s.tapAlign r.val found.out found.lead)

/-- HOST_TAP_ALIGN_LOSS (R163, R165). -/
def execHostTapAlignLoss (r : Region) (out : Bool) (s : State) : Result := finish s <| .next (s.tapLost r.val out)

end Sys2Proof.Machine
end

