-- ==== Sys2Proof/Machine/Quality.lean ====
section
/-!
DEFINITION. The quality record and the choice of an LLR set at a window end (R282, R283, Table 9-7).
-/

namespace Sys2Proof.Machine

/-! ### Figures -/


/-- Is `scale` × log10 of `a / b` at least `k` − 1/2? Compared as integer powers. -/
def logAtLeast (scale a b : Nat) (k : Int) : Bool :=
  let e := 2 * k - 1
  if e < 0 then decide (b ^ (2 * scale) ≤ a ^ (2 * scale) * 10 ^ e.natAbs)
  else decide (b ^ (2 * scale) * 10 ^ e.natAbs ≤ a ^ (2 * scale))
/-- The 16-bit signed integer nearest `scale` × log10 of `a / b`; no value where `a` or `b` is zero. -/
def logNearest (scale a b : Nat) : Option Int :=
  if a = 0 ∨ b = 0 then none
  else some ((bisect (fun k => logAtLeast scale a b ((k : Int) - 32768)) 16 0 : Nat) - 32768)

/-- The sums of one decided level. -/
def qN (m : Moments) (i : Nat) : Nat := (m.getD i (0, 0, 0)).1
def qSum (m : Moments) (i : Nat) : Int := (m.getD i (0, 0, 0)).2.1
def qSq (m : Moments) (i : Nat) : Nat := (m.getD i (0, 0, 0)).2.2
/-- Samples of the window. -/
def qTotal (m : Moments) : Nat := ((List.range 4).map (qN m)).sum
/-- Sum of e² over the window, e = z′ − L. -/
def qErr (m : Moments) : Nat :=
  (((List.range 4).map fun i => (qSq m i : Int) - 2 * nominal i * qSum m i + nominal i * nominal i * qN m i).sum).toNat
/-- SNR in 2^-8 dB: 10 log10 of 81,920 over the mean of e². -/
def qSnr (m : Moments) : Option Int := logNearest 2560 (81920 * (qTotal m)) (qErr m)
/-- Mean of z′ at a level, to the nearest d/256; none where no symbol was decided as it. -/
def qMean (m : Moments) (i : Nat) : Option Int :=
  if qN m i = 0 then none else some ((2 * qSum m i + qN m i) / (2 * qN m i))
/-- Standard deviation of z′ at a level, to the nearest d/256. -/
def qSigma (m : Moments) (i : Nat) : Nat :=
  let v := ((qN m i : Int) * qSq m i - qSum m i * qSum m i).toNat
  bisect (fun k => decide ((2 * k - 1) ^ 2 * (qN m i) ^ 2 ≤ 4 * v)) 16 0
/-- Eye `i` at 3σ. -/
def qEye (m : Moments) (i : Nat) : Option Int :=
  match qMean m i, qMean m (i + 1) with
  | some a, some b => some ((b - 3 * (qSigma m (i + 1) : Int)) - (a + 3 * (qSigma m i : Int)))
  | _, _ => none
/-- The smallest of the three eyes. -/
def qEyeMin (m : Moments) : Option Int :=
  match qEye m 0, qEye m 1, qEye m 2 with
  | some a, some b, some c => some (min a (min b c))
  | _, _, _ => none

/-- Write a signed 16-bit figure; a figure the manual gives no value for is a free value (log 2). -/
def State.figure (s : State) (a : Nat) (v : Option Int) : State :=
  match v with
  | some x => s.wr a (enc 16 (sat 16 x))
  | none => s.draw.2.wr a (s.draw.1.toNat % 65536)

/-! ### LLR sets (R282) -/

/-- Sets of a lane in section 0x07: N sets of 228 words, N − 1 boundaries, the conservative index. -/
def Bundle.llrCount (b : Bundle) (n : Nat) : Nat :=
  match b.sect 7 n with
  | none => 1
  | some ws => ws.length / 229
/-- Boundary `k` of a lane, 1 to N − 1. -/
def Bundle.llrBound (b : Bundle) (n k : Nat) : Int :=
  match b.sect 7 n with
  | none => 0
  | some ws => sgn 16 (ws.getD (228 * (ws.length / 229) + k - 1) 0)

/-- One step of the choice: up at B(k+1) + 0.25 dB or more, down below Bk − 0.25 dB. -/
def Bundle.llrStep (b : Bundle) (n k : Nat) (snr : Int) : Nat :=
  if k + 1 < b.llrCount n ∧ snr ≥ b.llrBound n (k + 1) + 64 then k + 1
  else if 0 < k ∧ snr < b.llrBound n k - 64 then k - 1
  else k

/-! ### Records -/

/-- Are the recipes of a die's Joiner running? -/
def State.recipes (s : State) (die : Nat) : Bool :=
  decide (s.rd (JNR.STATE (s.servJ die)) = 2)

/-- Is a window valid: half of its ticks counted, 2^16 samples (R283)? -/
def windowOk (ticks counted samples : Nat) : Bool := decide (ticks ≤ 2 * counted ∧ 65536 ≤ samples ∧ 0 < ticks)

/-- The choice of a line lane's LLR set at a window end, and QFLAGS bit 4: at most one step, put in service by a publish; a
publish that is turned away leaves the choice to the next window end (R282, Table 9-13). Until the first valid window after
TRACK the conservative set stays. -/
def State.chooseLlr (s : State) (n : Nat) (ok : Bool) : State :=
  let old := s.rd (OBS.LLR_IDX n)
  let new := s.sys.bundle.llrStep n old (s.rdS (OBS.SNR n))
  let s := s.modRx n fun r => { r with qFirst := r.qFirst && !ok }
  if ok ∧ new ≠ old ∧ s.rd (LRX.STATE n) = 3 then
    let o := s.llrPub (s.servJ (dieOfLine n)) n new 0
    o.2.wrBit (OBS.QFLAGS n) 4 o.1
  else s.wrBit (OBS.QFLAGS n) 4 false

/-- The record of a line lane; QSEQ is the number of window ends (R283). -/
def State.lineQuality (s : State) (n : Nat) (m : Moments) : State :=
  let r := s.rxL n
  let ok := windowOk r.qTicks r.qTrack (qTotal m)
  let s := (s.wr (OBS.QSEQ n) s.sys.windows).wr (OBS.QTICKNO n) (s.nowL n)
  let s := s.wr (OBS.QFLAGS n) (ok.toNat + 2 * (decide (r.qTrack < r.qTicks)).toNat + 4 * (decide (0 < r.qCons)).toNat
    + 8 * (ok && decide (r.qBits = 0)).toNat)
  let fig := fun (v : Option Int) => if ok then v else some (-32768)
  let s := (s.figure (OBS.SNR n) (fig (qSnr m))).figure (OBS.BER_LOG n) (fig (logNearest 1024 (max 1 r.qBits) (128 * r.qGood)))
  let s := (List.range 4).foldl (fun (s : State) i => s.figure (OBS.LEVEL_MEAN n i) (fig (qMean m i))) s
  let s := (List.range 3).foldl (fun (s : State) i => s.figure (OBS.EYE n i) (fig (qEye m i))) s
  let s := s.chooseLlr n ok
  if ok then s.ctleRun (s.servJ (dieOfLine n)) n (s.rdS (OBS.SNR n)) else s

/-- The record of a host lane. -/
def State.hostQuality (s : State) (k : Nat) (m : Moments) : State :=
  let h := s.hostL k
  let ok := windowOk h.qTicks h.qData (qTotal m)
  let s := (s.wr (OBS.HQSEQ k) s.sys.windows).wr (OBS.HQFLAGS k) (ok.toNat + 2 * (decide (h.qData < h.qTicks)).toNat)
  let fig := fun (v : Option Int) => if ok then v else some (-32768)
  (s.figure (OBS.HSNR k) (fig (qSnr m))).figure (OBS.HEYE_MIN k) (fig (qEyeMin m))

/-- QUALITY_WINDOW_END (R283, R282, Table 9-13): at a boundary with TICKNO mod QUAL_WIN = 0 the running recipes write
every lane's record; the sums start again. A window end without running recipes is counted all the same. -/
def execQualityWindowEnd (q h : List Moments) (s : State) : Result := finish s <|
  if !(WellFormed.moments 8 q && WellFormed.moments 16 h) then .refused (.illFormed "QUALITY_WINDOW_END")
  else if s.tickno % max 1 (s.rd DEV.QUAL_WIN) ≠ 0 then .next s
  else
    let s := s.modSys fun y => { y with windows := (y.windows + 1) % 2 ^ 32 }
    let s := (List.range 8).foldl (fun (s : State) n =>
      let s := if s.recipes (dieOfLine n) then s.lineQuality n (q.getD n []) else s
      s.modRx n fun r => { r with qTicks := 0, qTrack := 0, qCons := 0, qBits := 0, qGood := 0 }) s
    .next ((List.range 16).foldl (fun (s : State) k =>
      let s := if s.recipes (dieOfHost k) then s.hostQuality k (h.getD k []) else s
      s.modHost k fun x => { x with qTicks := 0, qData := 0 }) s)

end Sys2Proof.Machine
end

