-- ==== Sys2Proof/Machine/Requests.lean ====
section
/-!
DEFINITION. The request commands, one per opcode of Table 10-4, and the live writes of single fields, each a LIVE_WRITE
request of one entry (R19, R305).
-/

namespace Sys2Proof.Machine

/-! ### Requests -/

/-- IDENTIFY (R304, R431). -/
def execIdentify (r : Request) (s : State) : Result := finish s <| .next (s.request 0x01 r)
/-- STATUS (R302, R304). -/
def execStatus (r : Request) (s : State) : Result := finish s <| .next (s.request 0x02 r)
/-- STAGE_WRITE (R305). -/
def execStageWrite (r : Request) (s : State) : Result := finish s <| .next (s.request 0x10 r)
/-- STAGE_READ (R306). -/
def execStageRead (r : Request) (s : State) : Result := finish s <| .next (s.request 0x11 r)
/-- LIVE_WRITE (R19, R305). -/
def execLiveWrite (r : Request) (s : State) : Result := finish s <| .next (s.request 0x12 r)
/-- READ (R306). -/
def execRead (r : Request) (s : State) : Result := finish s <| .next (s.request 0x13 r)
/-- COMMIT (R31, R307). -/
def execCommit (r : Request) (s : State) : Result := finish s <| .next (s.request 0x18 r)
/-- DISCARD (R32, R309). -/
def execDiscard (r : Request) (s : State) : Result := finish s <| .next (s.request 0x19 r)
/-- LANE_UP (R310). -/
def execLaneUp (r : Request) (s : State) : Result := finish s <| .next (s.request 0x20 r)
/-- LANE_DOWN (R310). -/
def execLaneDown (r : Request) (s : State) : Result := finish s <| .next (s.request 0x21 r)
/-- CALIBRATE (R277). -/
def execCalibrate (r : Request) (s : State) : Result := finish s <| .next (s.request 0x30 r)
/-- SYSCAL_POINT (R316, R351). -/
def execSyscalPoint (r : Request) (s : State) : Result := finish s <| .next (s.request 0x31 r)
/-- SLEEP (R311, R387). -/
def execSleep (r : Request) (s : State) : Result := finish s <| .next (s.request 0x40 r)
/-- WAKE (R303, R311). -/
def execWake (r : Request) (s : State) : Result := finish s <| .next (s.request 0x41 r)
/-- TABLE_LOAD (R308). -/
def execTableLoad (r : Request) (s : State) : Result := finish s <| .next (s.request 0x50 r)
/-- TABLE_READ (R304). -/
def execTableRead (r : Request) (s : State) : Result := finish s <| .next (s.request 0x51 r)
/-- RECIPE_LOAD (R313). -/
def execRecipeLoad (r : Request) (s : State) : Result := finish s <| .next (s.request 0x52 r)
/-- CAPTURE_ARM (R315, R470). -/
def execCaptureArm (r : Request) (s : State) : Result := finish s <| .next (s.request 0x60 r)
/-- CAPTURE_READ (R315, R474). -/
def execCaptureRead (r : Request) (s : State) : Result := finish s <| .next (s.request 0x61 r)
/-- IMAGE_WRITE (R313, R417). -/
def execImageWrite (r : Request) (s : State) : Result := finish s <| .next (s.request 0x70 r)
/-- IMAGE_ACTIVATE (R314, R422). -/
def execImageActivate (r : Request) (s : State) : Result := finish s <| .next (s.request 0x71 r)
/-- SHUTDOWN (R312, R429). -/
def execShutdown (r : Request) (s : State) : Result := finish s <| .next (s.request 0x78 r)
/-- RETIRE_UNIT (R310, R137). -/
def execRetireUnit (r : Request) (s : State) : Result := finish s <| .next (s.request 0x7C r)
/-- LOG_READ (R481). -/
def execLogRead (r : Request) (s : State) : Result := finish s <| .next (s.request 0x7E r)
/-- SNAPSHOT (R467). -/
def execSnapshot (r : Request) (s : State) : Result := finish s <| .next (s.request 0x7F r)

/-! ### Live writes of one field -/

/-- A LIVE_WRITE request of one entry. -/
def liveRequest (via : Via) (tag : Byte) (a : Nat) (v : BitVec 64) : Request :=
  ⟨via, tag, 0, le 2 1 ++ [0, 0] ++ le 4 a ++ le 8 v.toNat⟩
/-- A LIVE_WRITE of one entry arrives. -/
def State.liveOne (s : State) (via : Via) (tag : Byte) (a : Nat) (v : BitVec 64) : State :=
  s.request 0x12 (liveRequest via tag a v)

/-- LTX_SQUELCH_WRITE (R106, R107). -/
def execLtxSquelchWrite (via : Via) (tag : Byte) (inst : BitVec 8) (value : BitVec 64) (s : State) : Result := finish s <|
  .next (s.liveOne via tag (fld 0x11 inst.toNat 0x0012) value)
/-- HTX_SQUELCH_WRITE (R195). -/
def execHtxSquelchWrite (via : Via) (tag : Byte) (inst : BitVec 8) (value : BitVec 64) (s : State) : Result := finish s <|
  .next (s.liveOne via tag (fld 0x21 inst.toNat 0x0012) value)
/-- SEQ_GO (R340). -/
def execSeqGo (via : Via) (tag : Byte) (value : BitVec 64) (s : State) : Result := finish s <|
  .next (s.liveOne via tag HK.SEQ_GO value)
/-- RING_MARK_SET (R345). -/
def execRingMarkSet (via : Via) (tag : Byte) (value : BitVec 64) (s : State) : Result := finish s <|
  .next (s.liveOne via tag HK.RING_MARK_SET value)
/-- WIN_CLR (R349). -/
def execWinClr (via : Via) (tag : Byte) (value : BitVec 64) (s : State) : Result := finish s <|
  .next (s.liveOne via tag HK.WIN_CLR value)
/-- BIAS_RELEASE (R357). -/
def execBiasRelease (via : Via) (tag : Byte) (value : BitVec 64) (s : State) : Result := finish s <|
  .next (s.liveOne via tag BDAC.RELEASE value)
/-- SC_CLR (R358). -/
def execScClr (via : Via) (tag : Byte) (value : BitVec 64) (s : State) : Result := finish s <|
  .next (s.liveOne via tag BDAC.SC_CLR value)
/-- BIAS_CODE_WRITE (R355). -/
def execBiasCodeWrite (via : Via) (tag : Byte) (c : Chan) (value : BitVec 64) (s : State) : Result := finish s <|
  .next (s.liveOne via tag (BDAC.CODE c.val) value)
/-- LOOP_TARGET_WRITE (R364). -/
def execLoopTargetWrite (via : Via) (tag : Byte) (c : Chan) (value : BitVec 64) (s : State) : Result := finish s <|
  .next (s.liveOne via tag (BDAC.LOOP_TARGET c.val) value)
/-- CAUSE_CLR (R405). -/
def execCauseClr (via : Via) (tag : Byte) (value : BitVec 64) (s : State) : Result := finish s <|
  .next (s.liveOne via tag RST.CAUSE_CLR value)
/-- RESYNC_GO (R452). -/
def execResyncGo (via : Via) (tag : Byte) (p : Port) (value : BitVec 64) (s : State) : Result := finish s <|
  .next (s.liveOne via tag (TEN.RESYNC_GO p.val) value)
/-- ALARM_CLR (R460). -/
def execAlarmClr (via : Via) (tag : Byte) (value : BitVec 64) (s : State) : Result := finish s <|
  .next (s.liveOne via tag (TEN.ALARM_CLR 1) value)
/-- CAP_MARK_SET (R473). -/
def execCapMarkSet (via : Via) (tag : Byte) (value : BitVec 64) (s : State) : Result := finish s <|
  .next (s.liveOne via tag OBS.CAP_MARK_SET value)
/-- HIST_GO (R476). -/
def execHistGo (via : Via) (tag : Byte) (value : BitVec 64) (s : State) : Result := finish s <|
  .next (s.liveOne via tag OBS.HIST_GO value)
/-- IRQ_CLR (R482). -/
def execIrqClr (via : Via) (tag : Byte) (value : BitVec 64) (s : State) : Result := finish s <|
  .next (s.liveOne via tag OBS.IRQ_CLR value)
/-- LANE_CHG_CLR (R482). -/
def execLaneChgClr (via : Via) (tag : Byte) (value : BitVec 64) (s : State) : Result := finish s <|
  .next (s.liveOne via tag OBS.LANE_CHG_CLR value)
/-- FAULT_CLR (R483). -/
def execFaultClr (via : Via) (tag : Byte) (value : BitVec 64) (s : State) : Result := finish s <|
  .next (s.liveOne via tag OBS.FAULT_CLR value)

end Sys2Proof.Machine
end

