-- ==== Sys2Proof/Machine/Tenon.lean ====
section
/-!
DEFINITION. The Tenon link: training and loss of ports, delay measurement, ticks, joining and rejoining, TICK_SYNC
(R436 to R454, R463).
-/

namespace Sys2Proof.Machine

/-! ### Training (R443, R444, Table 16-4) -/

/-- A step of a training fails: counted, and tried again after 10 ms. -/
def State.trainFail (s : State) (p : Nat) : State :=
  ((s.inc (TEN.TRAIN_FAIL_CNT p)).wr (TEN.STATE p) 4).modPort p fun t => { t with waiting := true }

/-- A port comes UP: enumeration repeats (R438), the partner is awake, a linking rafter seeks its address. -/
def State.portReady (s : State) (p : Nat) : State :=
  let s := (s.wr (TEN.STATE p) 2).wr (TEN.FLAGS p) (s.rd (TEN.FLAGS p) &&& 0x9C)
  let s := s.modPort p fun t => { t with step := 0, waiting := false, waking := none }
  let a := s.rd (TEN.ADDR 0)
  if p = 0 then (if s.rd (TEN.CHAIN_STATE 0) ≤ 1 then s.setChain 2 else s)
  else if s.rd DEV.ROLE = 1 then
    (s.wrBit (TEN.ASLEEP 1) 1 false).sendBlock 1 (block 0x66 [1])
  else if a = 0 then s
  else (s.sendBlock 1 (block 0x66 [a + 1])).enumAck

/-- TEN_TRAIN_STEP_DONE (Table 16-4): the step in progress ends. Step 4 has found inverted or swapped lanes; `dir` is the
DIR step 5 received. -/
def execTenTrainStepDone (p : Port) (inv0 inv1 swap dir : Bool) (s : State) : Result := finish s <|
  let adv := fun (s : State) (k : Nat) => s.modPort p fun t => { t with step := k }
  if s.rd (TEN.STATE p) ≠ 1 then .next s
  else match (s.port p).step with
    | 1 => .next (adv (s.wr (PWR.CLK_STATE 45) 1) 2)
    | 2 => .next (adv ((s.wr (PWR.CLK_STATE (46 + p)) 1).wrBit (TEN.FLAGS p) 6 false) 3)
    | 3 => .next (adv s 4)
    | 4 => .next (adv (((s.wrBit (TEN.FLAGS p) 2 inv0).wrBit (TEN.FLAGS p) 3 inv1).wrBit (TEN.FLAGS p) 4 swap) 5)
    | 5 => .next (if dir = decide (p = 1) then s.trainFail p else adv s 6)
    | _ => .next (s.portReady p)

/-- TEN_TRAIN_TIMEOUT (R443, R437): without a partner this device is the end of the chain. -/
def execTenTrainTimeout (p : Port) (s : State) : Result := finish s <|
  if s.rd (TEN.STATE p) ≠ 1 then .next s
  else
    let alone := decide ((s.port p).step = 2)
    let s := s.trainFail p
    if !alone then .next s
    else
      let s := s.wrBit (TEN.FLAGS p) 6 true
      .next (if p = 1 ∧ !s.bit (TEN.FLAGS p) 5 then s.enumAck else s)

/-- TEN_RETRAIN_DELAY (R443). -/
def execTenRetrainDelay (p : Port) (s : State) : Result := finish s <|
  .next (if (s.port p).waiting ∧ s.rd (TEN.EN p) = 1 then s.trainStart p else s)

/-- TEN_LINK_LOSS (R445, R461): loss of signal, or of lock; expected of a partner that sleeps. -/
def execTenLinkLoss (p : Port) (lol : Bool) (s : State) : Result := finish s <|
  if !s.portUp p then .next s
  else
    let s := if s.bit (TEN.FLAGS p) 5 then s
      else ((s.wrBit (TEN.FLAGS p) lol.toNat true).inc (TEN.LINK_DOWN_CNT p)).logEv { level := 5, inst := p, code := 0x6001 }
    .next ((s.wr (TEN.STATE p) 1).portGone p |>.trainStart p)

/-! ### Delay of the upstream hop (R446) -/

/-- A rafter with its upstream port UP. -/
def State.rafterUp (s : State) : Bool := decide (s.rd DEV.ROLE = 2) && s.portUp 0

/-- PROBE_SEND (R446). -/
def execProbeSend (s : State) : Result := finish s <|
  let q := s.ten.probe
  .next (if s.rafterUp then
    (s.sendBlock 0 (block 0x4B [q])).modTen fun t => { t with probe := (q + 1) % 256, probing := some q } else s)

/-- PROBE_BLOCK (R446): the upstream partner answers on its downstream port with the time it took, in u. -/
def execProbeBlock (seq : Byte) (turn : BitVec 24) (s : State) : Result := finish s <|
  .next (s.sendBlock 1 (block 0x55 (seq.toNat :: le3 turn.toNat)))

/-- The nearest integer to `a / b`. -/
def nearest (a : Int) (b : Nat) : Int := (2 * a + b) / (2 * b)

/-- ECHO_BLOCK (R446): a sample of the round trip, in u; the means of the last 256. Samples hold the round trip and twice
the delay. -/
def execEchoBlock (seq : Byte) (turn : BitVec 24) (trip : BitVec 32) (s : State) : Result := finish s <|
  if !s.rafterUp ∨ s.ten.probing ≠ some seq.toNat then .next s
  else
    let all := s.ten.samples ++ [((trip.toNat : Int), (trip.toNat : Int) - turn.toNat + 2 * s.rdS (TEN.ASYM_COMP 0))]
    let l := all.drop (all.length - 256)
    let s := s.modTen fun t => { t with probing := none, samples := l }
    .next ((s.wr (TEN.LINK_DELAY 0) (enc 24 (nearest (l.map (·.2)).sum (2 * l.length)))).wr (TEN.RTT 0)
      (enc 24 (nearest (l.map (·.1)).sum l.length)))

/-! ### Tick corrections (R28, R448) -/

/-- A core cycle is this many 1/425 u: 102.4 GHz over 1.770833 GHz in L400, half that clock in L200. -/
def State.cycleU (s : State) : Nat := 24576 * (1 + s.rate 0)
/-- Is an error, in u, more than half a core cycle? -/
def State.offCycle (s : State) (err : Int) : Bool := decide (s.cycleU < 2 * 425 * err.natAbs)
/-- Is an error within SLEW_MAX cycles? -/
def State.slewable (s : State) (err : Int) : Bool := decide (425 * err.natAbs ≤ s.rd (TEN.SLEW_MAX 0) * s.cycleU)
/-- The whole cycles nearest to −`err`, at most 8 either way. -/
def State.correction (s : State) (err : Int) : Int := max (-8) (min 8 (nearest (-425 * err) s.cycleU))
/-- The next tick changes its length while the error exceeds half a cycle. -/
def State.adjust (s : State) (err : Int) : State :=
  if s.offCycle err then (s.modTen fun t => { t with adj := s.correction err }).inc (TEN.TICK_ADJ_CNT 0) else s

/-! ### Loading TICKNO (R28, R451, R452) -/

/-- Move the stamps of a master copy that exists. -/
def shiftStamp (dm : List (Nat × Nat)) (d kind tgt : Nat) : List (Nat × Nat) :=
  let a := stampArea kind tgt
  let e := dmWord dm (a + 2) + 2 ^ 32 * dmHalf dm (a + 6)
  if e = 0 ∧ dmHalf dm a = 0 ∧ dmWord dm (a + 10) = 0 then dm else dmPut dm (a + 2) 6 ((e + d) % 2 ^ 48)
/-- Add a difference to the EPOCH of every active set and master copy. -/
def State.shiftEpochs (s : State) (d : Nat) : State :=
  let m := fun (t : TblMem) => { t with active := { t.active with epoch := (t.active.epoch + d) % 2 ^ 48 } }
  let on := fun (t : TblMem) => if t.powered then m t else t
  let s := { s with ctxT := s.ctxT.map on, shpT := s.shpT.map on }
  let s := (List.range 8).foldl (fun (s : State) n =>
    let s := if (s.tbl n .ctx).powered then s.wr (CTX.EPOCH n) (s.tbl n .ctx).active.epoch else s
    if (s.tbl n .shp).powered then s.wr (CTX.SHP_EPOCH n) (s.tbl n .shp).active.epoch else s) s
  let all := ((List.range 8).flatMap fun n => [1, 2, 3, 4, 5, 6].map fun k => (k, n)) ++ (List.range 16).map fun k => (8, 16 + k)
  [0, 1].foldl (fun (s : State) j => s.modJn j fun x => { x with dm := all.foldl (fun dm y => shiftStamp dm d y.1 y.2) x.dm }) s

/-- TICKNO is loaded at the next boundary (R8, R28), so that the boundary `near` ticks from the last one is `no`. -/
def State.loadTickno (s : State) (no : Nat) (near : Int) (again : Bool) : State :=
  s.modTen fun t => { t with load := some ((((no : Int) - near) % (2 ^ 48 : Nat)).toNat, again) }

/-- The waiting lanes of a join come up, or relink (R453). -/
def State.joinRelease (s : State) : State :=
  match s.ten.join with
  | none => s
  | some (l, h, wake) =>
    let s := s.modTen fun t => { t with join := none }
    if wake then s.relinkLanes (l + 256 * h) 3 else s.autoUp l h

/-- The rafter is joined: it slews. -/
def State.slew (s : State) (rejoin : Bool) : State :=
  ((s.setChain 3).modTen fun t => { t with slewing := rejoin }).joinRelease

/-- The first lawful boundary for both dies after a TICKNO. -/
def State.lawfulAfter (s : State) (t : Nat) : Nat := if s.dieTicks 1 (addTicks t 1) ∧ s.dieTicks 0 (addTicks t 1) then addTicks t 1 else addTicks t 2

/-- A resynchronisation begins: LANE_DOWN of every up lane, after the target of any pending commit. -/
def State.resyncStart (s : State) : State :=
  let l := maskIf 8 s.lineUp
  let h := maskIf 16 s.hostUp
  let t := s.doms.foldl (fun t d => match d.commit with
    | some c => if reached t (addTicks c.target 1) then t else s.lawfulAfter c.target
    | none => t) (s.earliest [0, 1])
  let s := (s.modSys fun y => { y with resyncGo := false }).modTen fun t => { t with resync := some (l, h), owed := true }
  if l = 0 ∧ h = 0 then s else { s with lanes := s.lanes ++ [LaneReq.mk false l h t none] }

/-- A rejoin (R452): by slewing, or by resynchronisation as RESYNC_POL selects, which takes the number of a TICK that a
TIME precedes and, with no lane up, loads it at the next boundary. -/
def State.rejoin (s : State) (agree : Bool) (err near : Int) (time : Option Nat) : State :=
  if !s.ten.owed ∧ agree ∧ s.slewable err then (s.slew true).adjust err
  else
    let go := s.ten.resync.isNone || !s.ten.owed
    let s := if go ∧ (s.rd (TEN.RESYNC_POL 0) = 0 ∨ s.sys.resyncGo) then s.resyncStart else s
    match time with
    | some no => if s.ten.resync.isSome ∧ s.ten.owed ∧ s.upMask = 0 then (s.loadTickno no near true).adjust err else s
    | none => s

/-- The rafter is aligned: lanes taken down for a resynchronisation come up again. -/
def State.alignedNow (s : State) : State :=
  let s := s.setChain 4
  let s := if s.ten.slewing then (s.inc (TEN.SLEW_CNT 0)).modTen fun t => { t with slewing := false } else s
  match s.ten.resync with
  | some (l, h) => (s.modTen fun t => { t with resync := none }).autoUp l h
  | none => s

/-! ### TICK and TIME (R447, R448, R450, R451) -/

/-- What a TICK does to the chain state. -/
def State.tickJudge (s : State) (ridge agree : Bool) (err near : Int) (time : Option Nat) : State :=
  let c := s.rd (TEN.CHAIN_STATE 0)
  if s.joined then
    if !agree then s.chainLost
    else if !ridge then (s.setChain 5).adjust err
    else if c = 3 ∧ !s.offCycle err then s.alignedNow
    else s.adjust err
  else if !ridge then (if c = 5 ∧ agree ∧ s.slewable err then s.adjust err else s)
  else if c < 2 ∨ s.rd (TEN.ADDR 0) = 0 then s
  else if c = 2 ∧ !s.ten.loaded ∧ s.upMask = 0 then
    (match time with
    | some no => (s.loadTickno no near false).adjust err
    | none => s)
  else if c = 6 ∧ time.isNone then s
  else s.rejoin agree err near time

/-- TICK_BLOCK (R447, R448): `near` is the own boundary nearest the ridge's, counted from the last one, and `since` the
time in u from it to the arrival; `residence` the time until it is relayed. A slewing rafter relays with RIDGE_TIME 0
(Table 16-5). -/
def execTickBlock (offset : BitVec 24) (ridge : Bool) (hops : BitVec 5) (no : BitVec 24) (near since : Int)
    (residence : BitVec 24) (s : State) : Result := finish s <|
  if !s.rafterUp then .next s
  else
    let err := (offset.toNat : Int) + s.rd (TEN.LINK_DELAY 0) - since
    let own := (((s.tickno : Int) + near) % (2 ^ 48 : Nat)).toNat
    let time := s.ten.time.map (·.1)
    let agree := decide (own % 2 ^ 24 = no.toNat) && (match time with
      | some t => decide (t = own)
      | none => true)
    let s := (s.wr (TEN.ALIGN_ERR 0) (enc 32 err)).modTen fun t => { t with time := none }
    let s := s.tickJudge ridge agree err near time
    let s := s.modTen fun t => { t with lastTick := s.tickno }
    .next (if s.joined then
      s.sendBlock 1 (tickBlock (offset.toNat + s.rd (TEN.LINK_DELAY 0) + residence.toNat)
        (decide (s.rd (TEN.CHAIN_STATE 0) = 4)) (hops.toNat + 1) no.toNat) else s)

/-- TIME_BLOCK (R450): another rate mode is refused; else the next TICK marks this boundary. A joined rafter passes it
on. -/
def execTimeBlock (no : BitVec 48) (mode : BitVec 2) (s : State) : Result := finish s <|
  if !s.rafterUp then .next s
  else if mode.toNat ≠ s.rate 0 then
    .next (if s.rd (TEN.CHAIN_STATE 0) = 6 ∨ s.rd (TEN.CHAIN_STATE 0) < 2 then s
      else (s.setChain 6).modTen fun t => { t with adj := 0, slewing := false, owed := true, time := none })
  else
    let s := s.modTen fun t => { t with time := some (no.toNat, mode.toNat) }
    .next (if s.joined then s.sendBlock 1 (timeBlock no.toNat mode.toNat) else s)

/-- TICK_TIMEOUT (R451): no TICK for 4 ticks. -/
def execTickTimeout (s : State) : Result := finish s <|
  .next (if 4 ≤ ticksSince s.tickno s.ten.lastTick then s.chainLost else s)

/-- JOIN_WAIT_EXPIRY (R453). -/
def execJoinWaitExpiry (s : State) : Result := finish s <| .next s.joinRelease

/-! ### TICK_SYNC (R454) -/

/-- Does the device drive a rising edge on TICK_SYNC at the boundary TICKNO shows? The pin is high for 64 core cycles. -/
def State.syncOut (s : State) : Bool :=
  decide (s.rd (TEN.TSYNC_MODE 0) = 1 ∧ s.tickno % 2 ^ s.rd (TEN.TSYNC_DIV 0) = 0)

/-- TICK_SYNC_EDGE (R454): `err` is the nearest own boundary minus the edge in u, `off` the distance in cycles from the
edge's expected place. -/
def execTickSyncEdge (err : Int) (off : Nat) (s : State) : Result := finish s <|
  if s.rd (TEN.TSYNC_MODE 0) ≠ 2 then .next s
  else
    let s := (s.wrBit (TEN.FLAGS 0) 7 false).modTen fun t => { t with lastEdge := s.tickno }
    .next ((if 1024 < off then s.inc (TEN.TSYNC_REALIGN_CNT 0) else s).adjust err)

/-- TICK_SYNC_LOSS (R454). -/
def execTickSyncLoss (s : State) : Result := finish s <|
  let late := decide (2 * 2 ^ s.rd (TEN.TSYNC_DIV 0) ≤ ticksSince s.tickno s.ten.lastEdge)
  .next (if s.rd (TEN.TSYNC_MODE 0) = 2 ∧ !s.bit (TEN.FLAGS 0) 7 ∧ late then
    (s.wrBit (TEN.FLAGS 0) 7 true).logOpen { level := 4 } else s)

end Sys2Proof.Machine
end

