-- ==== Sys2Proof/Machine/TenonMsg.lean ====
section
/-!
DEFINITION. What travels through a chain: addresses, forwarded requests and replies, telemetry, alarms, sleep and wake,
images (R438, R441, R442, R455 to R462).
-/

namespace Sys2Proof.Machine

/-! ### Enumeration (R438) -/

/-- The images a rafter's start wants over the link (R458): all, or those its flash has no valid copy of. -/
def State.wantMask (s : State) : Nat :=
  if s.rd DEV.BOOT_SRC = 1 then 7 else maskIf 3 fun ty => (s.newest ty).isNone
/-- The boot ROM of a rafter at step 6 asks for its images. -/
def State.bootAsk (s : State) : State := if s.sys.power.cold = 6 ∧ s.linkBoot then s.bootReq s.wantMask else s

/-- ENUM_BLOCK (R438). -/
def execEnumBlock (addr : Byte) (s : State) : Result := finish s <|
  let a := addr.toNat
  if !s.rafterUp ∨ a = 0 ∨ 32 < a then .next s
  else if a = 32 then
    let s := s.wr (TEN.ADDR 0) 0
    .next ((if s.rd (TEN.CHAIN_STATE 0) ≤ 2 then s.setChain 2 else s).logOpen { level := 4 })
  else
    let s := (s.wr (TEN.ADDR 0) a).sendBlock 1 (block 0x66 [a + 1])
    .next (if s.portUp 1 ∨ s.bit (TEN.FLAGS 1) 6 then s.enumAck else s).bootAsk

/-- The WAKE requests held for rafters that are back in the chain leave (R462). -/
def State.wakeRequests (s : State) (up : Nat → Bool) : State :=
  let s := (s.ten.fwd.filter fun f => f.wake && up f.addr).foldl (fun (s : State) f =>
    s.sendMsg 1 ⟨f.addr, 0, 0, requestBytes 0x41 f.ref.tag (byteOf f.ref.notify.toNat) []⟩) s
  let go := fun (f : Fwd) =>
    if f.wake && up f.addr then { f with wake := false, replied := false, sent := addTicks f.sent (s.msTicks 1500) } else f
  s.modTen fun t => { t with fwd := t.fwd.map go }

/-- ENUM_ACK_BLOCK (R438, R460). -/
def execEnumAckBlock (high : Byte) (s : State) : Result := finish s <|
  let h := high.toNat
  if !s.portUp 1 ∨ 31 < h then .next s
  else if s.rd DEV.ROLE = 1 then
    let old := s.rd (TEN.PRESENT 1)
    let fresh := (List.range 32).filter fun a => decide (0 < a ∧ a ≤ h) && !old.testBit a
    let s := s.modTen fun t => { t with telem := fresh.foldl (fun l a => spPut l a s.tickno) t.telem }
    .next (((s.wr (TEN.CHAIN_LEN 1) h).setPresent (2 ^ (h + 1) - 2)).wakeRequests fun a => decide (a ≤ h) && !s.bit (TEN.ASLEEP 1) a)
  else .next (if s.rd (TEN.CHAIN_LEN 1) = h then s else (s.wr (TEN.CHAIN_LEN 1) h).enumAck)

/-! ### Messages (R442, R455) -/

/-- A message that failed its CRC or block count. -/
def State.badMsg (s : State) (p : Nat) : State := s.inc (TEN.MSG_ERR_CNT p)
/-- Is a message from upstream for this rafter; must it pass it on? -/
def State.forMe (s : State) (dst : Nat) : Bool := decide (s.rd (TEN.ADDR 0) ≠ 0 ∧ (dst = 0xFF ∨ dst = s.rd (TEN.ADDR 0)))
def State.passDown (s : State) (dst : Nat) : Bool := decide (s.rd (TEN.ADDR 0) ≠ 0 ∧ (dst = 0xFF ∨ s.rd (TEN.ADDR 0) < dst))

/-- A rafter has been heard: it is awake (R461). -/
def State.heard (s : State) (a : Nat) : State :=
  (s.wrBit (TEN.ASLEEP 1) a false).modTen fun t => { t with sleeping := spDel t.sleeping a }

/-- TEN_REQUEST_MESSAGE (R442, R455): relayed, served on the Tenon transport, or both. -/
def execTenRequestMessage (dst src : Byte) (ok : Bool) (bytes : List Byte) (s : State) : Result := finish s <|
  if !s.rafterUp then .next s
  else if !ok then .next (s.badMsg 0)
  else
    let s := if s.passDown dst.toNat then s.sendMsg 1 ⟨dst.toNat, src.toNat, 0, bytes⟩ else s
    .next (if s.forMe dst.toNat then s.packet .tenon bytes else s)

/-- The status a code of Table 10-5 names. -/
def statusOf (v : Nat) : Option Status :=
  [Status.ok, .accepted, .badOpcode, .badLength, .badCrc, .badAddress, .conflict, .runLocked, .precondition, .truncated,
    .busy, .timeout, .denied, .hwFault].find? fun x => decide (x.code = v)

/-- A rafter's reply: queued for the requester with the prefix restored; a final one ends the forwarded request. -/
def State.tenReply (s : State) (src : Nat) (bs : List Byte) : State :=
  let hit := fun (f : Fwd) => decide (f.addr = src ∧ byteOf f.ref.op = bs.getD 1 0 ∧ f.ref.tag = bs.getD 2 0)
  match s.ten.fwd.find? hit, statusOf (getLe bs 3 1) with
  | some f, some st =>
    let fin := decide (st ≠ .accepted)
    let same := fun (g : Fwd) => decide (g.ref.rid = f.ref.rid)
    let next := fun (l : List Fwd) =>
      if fin then l.filter (fun g => !same g) else l.map fun g => if same g then { g with replied := true } else g
    let s := s.modTen fun t => { t with fwd := next t.fwd }
    let r : Reply := ⟨f.ref, st, getLe bs 6 2, .data (f.ref.pre ++ (bs.drop 8).take (getLe bs 4 2)), fin⟩
    let s := s.modTrans f.ref.via fun t => { t with replies := t.replies ++ [r] }
    if f.ref.notify then s.irq 0 else s
  | _, _ => s

/-- TEN_REPLY_MESSAGE (R455, R456): passed upstream, or queued by the ridge; one that comes too late is discarded. -/
def execTenReplyMessage (src : Byte) (ok : Bool) (bytes : List Byte) (s : State) : Result := finish s <|
  if !s.portUp 1 then .next s
  else if !ok then .next (s.badMsg 1)
  else if s.rd DEV.ROLE = 2 then .next (s.sendMsg 0 ⟨0, src.toNat, 1, bytes⟩)
  else .next ((s.heard src.toNat).tenReply src.toNat bytes)

/-- FWD_TIMEOUT (R456, R462): requests without a first reply in time; a wake has 1.5 s more. -/
def execFwdTimeout (s : State) : Result := finish s <|
  let late := fun (f : Fwd) =>
    let ms := s.rd (TEN.FWD_TIMEOUT_MS 1) + if f.wake then 1500 else 0
    (f.wake || !f.replied) && reached s.tickno (addTicks f.sent (s.msTicks ms))
  let out := s.ten.fwd.filter late
  let s := s.modTen fun t => { t with fwd := t.fwd.filter fun f => !late f }
  .next (out.foldl (fun (s : State) f => (s.inc (TEN.FWD_TIMEOUT_CNT 1)).refuse f.ref .timeout "RAFTER_SILENT") s)

/-! ### Telemetry and alarms (R460) -/

/-- TELEMETRY_SEND (R460). -/
def execTelemetrySend (s : State) : Result := finish s <|
  .next (if s.joined ∧ s.tickno % 1024 = 0 then s.sendMsg 0 ⟨0, s.rd (TEN.ADDR 0), 2, s.statusBlock⟩ else s)

/-- TELEMETRY_MESSAGE (R460): the ridge stores the record whole (log 190). -/
def execTelemetryMessage (src : Byte) (ok : Bool) (bytes : List Byte) (s : State) : Result := finish s <|
  let a := src.toNat
  if !s.portUp 1 then .next s
  else if !ok then .next (s.badMsg 1)
  else if s.rd DEV.ROLE = 2 then .next (s.sendMsg 0 ⟨0, a, 2, bytes⟩)
  else if a = 0 ∨ 31 < a then .next s
  else
    let s := ((s.heard a).wrBit (TEN.TELEM_LATE 1) a false).modTen fun t => { t with telem := spPut t.telem a s.tickno }
    .next (s.wrList (TEN.RAFTER_STATUS 1 (8 * (a - 1))) ((List.range 8).map fun w => getLe bytes (8 * w) 8))

/-- TELEM_LATE (R460): rafters of the chain without a record for 4,096 ticks. -/
def execTelemLate (s : State) : Result := finish s <|
  .next ((List.range 32).foldl (fun (s : State) a =>
    if s.bit (TEN.PRESENT 1) a ∧ 4096 ≤ ticksSince s.tickno (spGet 0 s.ten.telem a) then s.wrBit (TEN.TELEM_LATE 1) a true
    else s) s)

/-- ALARM_BLOCK (R460): status block bytes 12 and 13 of a rafter. -/
def execAlarmBlock (addr b12 b13 : Byte) (s : State) : Result := finish s <|
  let a := addr.toNat
  if !s.portUp 1 then .next s
  else if s.rd DEV.ROLE = 2 then .next (s.sendBlock 0 (block 0x96 [a, b12.toNat, b13.toNat]))
  else if a = 0 ∨ 31 < a then .next s
  else .next (((s.heard a).wrBit (TEN.ALARM 1) a true).logEv
    { level := 5, irq := true, inst := 1, code := 0x6003, detail := a, data := [addr, b12, b13] ++ List.replicate 10 0 })

/-! ### Sleep and wake (R461, R462) -/

/-- SLEEP_NOTE_BLOCK (R461, Table 16-7): requests that crossed it are answered BUSY, ASLEEP. -/
def execSleepNoteBlock (addr state : Byte) (s : State) : Result := finish s <|
  let a := addr.toNat
  if !s.portUp 1 then .next s
  else
    let s := if a = s.tenAddr + 1 then s.wrBit (TEN.FLAGS 1) 5 true else s
    if s.rd DEV.ROLE = 2 then .next (s.sendBlock 0 (block 0x99 [a, state.toNat]))
    else if a = 0 ∨ 31 < a then .next s
    else
      let cross := fun (f : Fwd) => decide (f.addr = a) && !f.replied && !f.wake
      let out := s.ten.fwd.filter cross
      let s := (s.wrBit (TEN.ASLEEP 1) a true).modTen fun t => { t with
        sleeping := spPut t.sleeping a state.toNat
        fwd := t.fwd.filter fun f => !cross f }
      .next (out.foldl (fun (s : State) f => s.refuse f.ref .busy "ASLEEP" 0xFFFFFFFF state.toNat) s)

/-- TENON_WAKE_BLOCK (R462): three consecutive WAKE blocks reach a listening port; the device wakes, and wakes the
partner downstream if the address lies beyond it. -/
def execTenonWakeBlock (addr : Byte) (s : State) : Result := finish s <|
  let a := addr.toNat
  let own := s.rd (TEN.ADDR 0)
  if s.rd (TEN.STATE 0) ≠ 3 ∨ a < own then .next s
  else
    let s := if own < a then
        s.modPort 1 fun t => { t with waking := some a, blocks := t.blocks ++ [block 0xA5 [a]] }
      else s
    .next (s.wakeSource 2)

/-! ### Images over the link (R458, R459) -/

/-- The messages of an image stream: pieces of at most 4,096 bytes under an eight-byte header. -/
def streamOf (dst ty : Nat) (img : List Byte) : List TenMsg :=
  (List.range ((img.length + 4095) / 4096)).map fun i =>
    ⟨dst, 0, 3, [byteOf ty, 0] ++ le 4 (4096 * i) ++ [0, 0] ++ (img.drop (4096 * i)).take 4096⟩

/-- BOOT_REQ_BLOCK (R458, R459): the serving ridge streams its newest valid copies, header through trailer, to every
rafter, or a bundle for a RECIPE_LOAD to the one that asks. -/
def execBootReqBlock (addr : Byte) (wanted : BitVec 3) (s : State) : Result := finish s <|
  if !s.portUp 1 then .next s
  else if s.rd DEV.ROLE = 2 then .next (s.sendBlock 0 (block 0xB4 [addr.toNat, wanted.toNat]))
  else if s.sys.mcState ≠ 2 then .next s
  else
    let dst := if wanted = 4 then addr.toNat else 0xFF
    .next ((List.range 3).foldl (fun (s : State) ty =>
      match wanted.getLsbD ty, s.newest ty with
      | true, some (c, _) => (streamOf dst ty (s.copyImg ty c ++ s.copyTrailer ty c)).foldl (fun (s : State) m => s.sendMsg 1 m) s
      | _, _ => s) s)

/-- A piece of a wanted image is kept; with its last byte the image is verified (R416). -/
def State.piece (s : State) (bs : List Byte) : State :=
  let ty := getLe bs 0 1
  if !s.ten.wanted.testBit ty ∨ 2 < ty then s
  else
    let data := bs.drop 8
    let off := getLe bs 2 4
    let m := spFill 0xFF (s.pieces ty) off (data.map BitVec.toNat)
    let s := s.modTen fun t => { t with pieces := t.pieces.filter (fun x => decide (x.1 ≠ ty)) ++ [(ty, m)] }
    let n := imgLen ty ((List.range 64).map fun i => byteOf (spGet 0xFF m i))
    if off + data.length < n + 16 then s
    else if (s.streamImg ty).isSome then s.modTen fun t => { t with wanted := setBit t.wanted ty false }
    else
      let s := s.modTen fun t => { t with failed := t.failed + 1, pieces := t.pieces.filter fun x => decide (x.1 ≠ ty) }
      if s.sys.power.cold = 6 ∧ 3 ≤ s.ten.failed then s.recover else s

/-- IMAGE_STREAM_MESSAGE (R458). -/
def execImageStreamMessage (dst : Byte) (ok : Bool) (bytes : List Byte) (s : State) : Result := finish s <|
  if !s.rafterUp then .next s
  else if !ok then .next (s.badMsg 0)
  else
    let s := if s.passDown dst.toNat then s.sendMsg 1 ⟨dst.toNat, 0, 3, bytes⟩ else s
    .next (if s.forMe dst.toNat then s.piece bytes else s)

/-- BOOT_REQ_RESEND (R458): a rafter in recovery asks again. -/
def execBootReqResend (s : State) : Result := finish s <|
  .next (if s.sys.recovery ∧ s.linkBoot ∧ s.portUp 0 then s.bootReq s.wantMask else s)

/-- TEN_BLOCK_DISCARDED (R441). -/
def execTenBlockDiscarded (p : Port) (s : State) : Result := finish s <| .next (if s.portUp p then s.badMsg p else s)

end Sys2Proof.Machine
end

