-- ==== Sys2Proof/Machine/Tick.lean ====
section
/-!
DEFINITION. The tick boundary as a command, and what a rafter loads at it (R8, R9, R10, R28, R29, R43, R451, R452).
-/

namespace Sys2Proof.Machine

/-! ### The boundary -/

/-- Advance TICKNO, logging its wrap (R9, R10). -/
def State.tickUp (s : State) : State :=
  let t := (s.tickno + 1) % 2 ^ 48
  let s := { s with tickno := t }
  if t = 0 then s.logEv { level := 4, code := 0x0102 } else s

/-- A rafter takes the TICKNO of its ridge at a boundary (R8, R28): the ended tick was number `t` of the ridge's count. A
load after the first moves the EPOCHs and is logged (R452); then it slews, and its waiting lanes come up (R453). -/
def State.tickLoad (s : State) : State :=
  match s.ten.load with
  | none => s
  | some (t, again) =>
    let old := s.tickno
    let s := { s with tickno := addTicks t 1 }.modTen fun x => { x with load := none, loaded := true, lastTick := t }
    let s := if again then
        (let s := (s.shiftEpochs (ticksSince s.tickno old)).inc (TEN.RESYNC_CNT 0)
         (s.logOpen { level := 5, data := le 6 old ++ le 6 s.tickno ++ [0] }).modTen fun x => { x with owed := false })
      else s
    s.slew false

/-- What die `d` does as its tick ends: slots cut off, fields, image. -/
def State.endTick (s : State) (d t : Nat) (f : TickFacts) : State :=
  let s := ((s.cutOff d).revertSlots d t).tickJoiner d
  let s := ([0, 1, 2, 3].map (4 * d + ·)).foldl (fun s n =>
    (s.tickLine n).tickHm n) s
  let s := ([0, 1, 2, 3].map (4 * d + ·)).foldl (fun s i => s.modTap i fun t => { t with count := .zero }) s
  let s := ((List.range 8).map (8 * d + ·)).foldl (fun s k => s.tickHost k (f.cdr.getD k 0) (f.ebuf.getD k 0)) s
  s.latch d t

/-- What die `d` judges at its boundary; corrected references of the die take effect (R377). -/
def State.judge (s : State) (d : Nat) (f : TickFacts) : State :=
  let ns := [0, 1, 2, 3].map (4 * d + ·)
  let s := s.takeTrims fun i b => decide (refSensor i / 8 = d) && b.any fun t => reached (s.now d) t
  let s := ns.foldl (fun s n =>
    let s := (s.slewLine n).judgeLine n (f.lineLow.getD n 0)
    let s := { s with track := modNth ⟨[], [], []⟩ s.track n fun x => { x with seen := [] } }
    let s := s.evalTick n ((f.mismatch.filter fun x => decide (x.1 = n)).map (·.2))
    let s := (s.evalReady n).clearDegraded n (f.trims.getD n [])
    (((s.masterOff n .ctx).masterOff n .shp).stepLine n).lossCheck n) s
  let s := ((List.range 8).map (8 * d + ·)).foldl (fun s k =>
    (s.slewHost k).judgeHost k (f.hostLow.getD k 0) (f.slips.getD k false)) s
  ns.foldl (fun s n =>
    let s := (s.pairCheck n).hostClock n
    match s.hists.getD n none with
    | some h => { s with hists := modNth none s.hists n fun _ => some { h with left := h.left - 1 } }
    | none => s) s

/-- Regions under throttling count a tick of their die (R370). -/
def State.throttleTicks (s : State) (ds : List Nat) : State :=
  (List.range 4).foldl (fun s r =>
    if ds.contains (r / 2) ∧ s.rd (THM.RG_LEVEL r) ≠ 0 then s.inc (THM.RG_THROT_TICKS r) else s) s

/-- Die 1's own boundary while the bridge is lost: its count advances by itself (R43). -/
def State.boundary1 (s : State) (t0 : Nat) (f : TickFacts) : State :=
  let t := (t0 + 1) % 2 ^ 48
  let ds := [1].filter fun d => s.dieTicks d t
  let s := ds.foldl (fun s d => s.endTick d t f) s
  let s := ds.foldl (fun s d => s.judge d f) { s with tick1 := some t }
  s.throttleTicks ds

/-- The boundary of the package: of both dies, or of die 0 alone while the bridge is lost (R29, R43). -/
def State.boundary0 (s : State) (f : TickFacts) : State :=
  let t := (s.tickno + 1) % 2 ^ 48
  let ds := (if s.tick1.isSome then [0] else [0, 1]).filter fun d => s.dieTicks d t
  let s := ds.foldl (fun s d => s.endTick d t f) s
  let s := { s.tickUp.modTen (fun t => { t with adj := 0 }) with tickAdj := s.ten.adj }
  let s := ds.foldl (fun s d => s.judge d f) s.tickLoad
  (s.throttleTicks ds).unitDrain.sendTicks

/-- TICK_BOUNDARY (R29): the tick ends, each die whose boundary this is latches its image, TICKNO advances and the
boundary is judged. It does not come while the core clock is stopped (R9). While the bridge is lost a boundary is die 0's,
or die 1's own (R43, log 158). -/
def execTickBoundary (f : TickFacts) (s : State) : Result := finish s <|
  if !WellFormed.tickFacts f then .refused (.illFormed "TICK_BOUNDARY")
  else if !s.coreOn then .next s
  else if f.own1 then .next (match s.tick1 with
    | some t0 => s.boundary1 t0 f
    | none => s)
  else .next (s.boundary0 f)

/-- AON_TICK_ADVANCE (R9): the always-on island counts ticks while the core clock is stopped. -/
def execAonTickAdvance (s : State) : Result := finish s <| .next (if s.coreOn then s else s.tickUp)

end Sys2Proof.Machine
end

