-- ==== Sys2Proof/Machine/Dispatch.lean ====
section
/-!
DEFINITION. Dispatch: one arm per command, each a direct call of its meaning.
-/

namespace Sys2Proof.Machine

def exec (i : Instr) (s : State) : Host.Outcome State Fault Refusal :=
  match i with
  | .tickBoundary f => Sys2Proof.Machine.execTickBoundary f s
  | .aonTickAdvance => Sys2Proof.Machine.execAonTickAdvance s
  | .lineRxWord n codes spare ups capBad => Sys2Proof.Machine.execLineRxWord n codes spare ups capBad s
  | .lineTxWord n h0 h1 ups => Sys2Proof.Machine.execLineTxWord n h0 h1 ups s
  | .packetWrite via bytes => Sys2Proof.Machine.execPacketWrite via bytes s
  | .replyRead via whole => Sys2Proof.Machine.execReplyRead via whole s
  | .statusBlockRead via ptr count => Sys2Proof.Machine.execStatusBlockRead via ptr count s
  | .i2cSclTimeout => Sys2Proof.Machine.execI2cSclTimeout s
  | .progressUpdate via tag phase percent elapsed remaining => Sys2Proof.Machine.execProgressUpdate via tag phase percent elapsed remaining s
  | .identify r => Sys2Proof.Machine.execIdentify r s
  | .status r => Sys2Proof.Machine.execStatus r s
  | .stageWrite r => Sys2Proof.Machine.execStageWrite r s
  | .stageRead r => Sys2Proof.Machine.execStageRead r s
  | .liveWrite r => Sys2Proof.Machine.execLiveWrite r s
  | .read r => Sys2Proof.Machine.execRead r s
  | .commit r => Sys2Proof.Machine.execCommit r s
  | .discard r => Sys2Proof.Machine.execDiscard r s
  | .laneUp r => Sys2Proof.Machine.execLaneUp r s
  | .laneDown r => Sys2Proof.Machine.execLaneDown r s
  | .calibrate r => Sys2Proof.Machine.execCalibrate r s
  | .syscalPoint r => Sys2Proof.Machine.execSyscalPoint r s
  | .sleep r => Sys2Proof.Machine.execSleep r s
  | .wake r => Sys2Proof.Machine.execWake r s
  | .tableLoad r => Sys2Proof.Machine.execTableLoad r s
  | .tableRead r => Sys2Proof.Machine.execTableRead r s
  | .recipeLoad r => Sys2Proof.Machine.execRecipeLoad r s
  | .captureArm r => Sys2Proof.Machine.execCaptureArm r s
  | .captureRead r => Sys2Proof.Machine.execCaptureRead r s
  | .imageWrite r => Sys2Proof.Machine.execImageWrite r s
  | .imageActivate r => Sys2Proof.Machine.execImageActivate r s
  | .shutdown r => Sys2Proof.Machine.execShutdown r s
  | .retireUnit r => Sys2Proof.Machine.execRetireUnit r s
  | .logRead r => Sys2Proof.Machine.execLogRead r s
  | .snapshot r => Sys2Proof.Machine.execSnapshot r s
  | .ltxSquelchWrite via tag inst value => Sys2Proof.Machine.execLtxSquelchWrite via tag inst value s
  | .htxSquelchWrite via tag inst value => Sys2Proof.Machine.execHtxSquelchWrite via tag inst value s
  | .seqGo via tag value => Sys2Proof.Machine.execSeqGo via tag value s
  | .ringMarkSet via tag value => Sys2Proof.Machine.execRingMarkSet via tag value s
  | .winClr via tag value => Sys2Proof.Machine.execWinClr via tag value s
  | .biasRelease via tag value => Sys2Proof.Machine.execBiasRelease via tag value s
  | .scClr via tag value => Sys2Proof.Machine.execScClr via tag value s
  | .biasCodeWrite via tag c value => Sys2Proof.Machine.execBiasCodeWrite via tag c value s
  | .loopTargetWrite via tag c value => Sys2Proof.Machine.execLoopTargetWrite via tag c value s
  | .causeClr via tag value => Sys2Proof.Machine.execCauseClr via tag value s
  | .resyncGo via tag p value => Sys2Proof.Machine.execResyncGo via tag p value s
  | .alarmClr via tag value => Sys2Proof.Machine.execAlarmClr via tag value s
  | .capMarkSet via tag value => Sys2Proof.Machine.execCapMarkSet via tag value s
  | .histGo via tag value => Sys2Proof.Machine.execHistGo via tag value s
  | .irqClr via tag value => Sys2Proof.Machine.execIrqClr via tag value s
  | .laneChgClr via tag value => Sys2Proof.Machine.execLaneChgClr via tag value s
  | .faultClr via tag value => Sys2Proof.Machine.execFaultClr via tag value s
  | .liveWriteEffect => Sys2Proof.Machine.execLiveWriteEffect s
  | .commitArm d ready1 => Sys2Proof.Machine.execCommitArm d ready1 s
  | .commitSwap d => Sys2Proof.Machine.execCommitSwap d s
  | .laneUpEffect => Sys2Proof.Machine.execLaneUpEffect s
  | .laneDownEffect => Sys2Proof.Machine.execLaneDownEffect s
  | .unitCommitArm => Sys2Proof.Machine.execUnitCommitArm s
  | .unitCommitSwap => Sys2Proof.Machine.execUnitCommitSwap s
  | .domainResetRelease dom => Sys2Proof.Machine.execDomainResetRelease dom s
  | .domainLockTimeout dom => Sys2Proof.Machine.execDomainLockTimeout dom s
  | .domainSupplyTimeout dom => Sys2Proof.Machine.execDomainSupplyTimeout dom s
  | .regionPllLockLoss r host => Sys2Proof.Machine.execRegionPllLockLoss r host s
  | .regionPllRelock r host => Sys2Proof.Machine.execRegionPllRelock r host s
  | .relockTimeout r host => Sys2Proof.Machine.execRelockTimeout r host s
  | .relockRetry r host => Sys2Proof.Machine.execRelockRetry r host s
  | .bridgeLoss => Sys2Proof.Machine.execBridgeLoss s
  | .bridgeRecovery => Sys2Proof.Machine.execBridgeRecovery s
  | .losDeclare n => Sys2Proof.Machine.execLosDeclare n s
  | .losClear n => Sys2Proof.Machine.execLosClear n s
  | .lolDeclare n => Sys2Proof.Machine.execLolDeclare n s
  | .relinkFallback n => Sys2Proof.Machine.execRelinkFallback n s
  | .relinkFailTimeout n => Sys2Proof.Machine.execRelinkFailTimeout n s
  | .trRowAdvance n => Sys2Proof.Machine.execTrRowAdvance n s
  | .trackEntry n => Sys2Proof.Machine.execTrackEntry n s
  | .darkCheckDone n pd => Sys2Proof.Machine.execDarkCheckDone n pd s
  | .rxCalComplete n first again lit => Sys2Proof.Machine.execRxCalComplete n first again lit s
  | .rxCalTimeout n found => Sys2Proof.Machine.execRxCalTimeout n found s
  | .coarseGainDone n => Sys2Proof.Machine.execCoarseGainDone n s
  | .coarseGainTimeout n => Sys2Proof.Machine.execCoarseGainTimeout n s
  | .rxBringupTimeout n => Sys2Proof.Machine.execRxBringupTimeout n s
  | .bgCalibrateTimeout n => Sys2Proof.Machine.execBgCalibrateTimeout n s
  | .txCalComplete n first again span => Sys2Proof.Machine.execTxCalComplete n first again span s
  | .txCalTimeout n found => Sys2Proof.Machine.execTxCalTimeout n found s
  | .txOutputEnable n => Sys2Proof.Machine.execTxOutputEnable n s
  | .txDisAssert => Sys2Proof.Machine.execTxDisAssert s
  | .txDisDeassert => Sys2Proof.Machine.execTxDisDeassert s
  | .shadowWriteComplete kind inst => Sys2Proof.Machine.execShadowWriteComplete kind inst s
  | .shadowVerifyComplete kind inst ups again => Sys2Proof.Machine.execShadowVerifyComplete kind inst ups again s
  | .tableLoadWriteStart n t => Sys2Proof.Machine.execTableLoadWriteStart n t s
  | .tableDomainFillComplete n t => Sys2Proof.Machine.execTableDomainFillComplete n t s
  | .scrubRead n t ups => Sys2Proof.Machine.execScrubRead n t ups s
  | .refreshStart n t => Sys2Proof.Machine.execRefreshStart n t s
  | .shadowRepairStart n t => Sys2Proof.Machine.execShadowRepairStart n t s
  | .refreshSwap n t => Sys2Proof.Machine.execRefreshSwap n t s
  | .remapActivation n => Sys2Proof.Machine.execRemapActivation n s
  | .trackerWatchExpiry n k => Sys2Proof.Machine.execTrackerWatchExpiry n k s
  | .masterCopyUpdate kind tgt => Sys2Proof.Machine.execMasterCopyUpdate kind tgt s
  | .masterCopyCheckFail n t addr => Sys2Proof.Machine.execMasterCopyCheckFail n t addr s
  | .zeroSetSwap n t => Sys2Proof.Machine.execZeroSetSwap n t s
  | .frameLock n => Sys2Proof.Machine.execFrameLock n s
  | .lofDeclare n => Sys2Proof.Machine.execLofDeclare n s
  | .fillWindowEnd n => Sys2Proof.Machine.execFillWindowEnd n s
  | .hostTapAlign r found => Sys2Proof.Machine.execHostTapAlign r found s
  | .hostTapAlignLoss r out => Sys2Proof.Machine.execHostTapAlignLoss r out s
  | .ebufExcursion k => Sys2Proof.Machine.execEbufExcursion k s
  | .hostLosDeclare k => Sys2Proof.Machine.execHostLosDeclare k s
  | .hostLosClear k => Sys2Proof.Machine.execHostLosClear k s
  | .hostLolDeclare k => Sys2Proof.Machine.execHostLolDeclare k s
  | .trainingRequest k req => Sys2Proof.Machine.execTrainingRequest k req s
  | .hostRxReady k => Sys2Proof.Machine.execHostRxReady k s
  | .trainingEnd k => Sys2Proof.Machine.execTrainingEnd k s
  | .trainingTimeout k => Sys2Proof.Machine.execTrainingTimeout k s
  | .hostDataEntry k => Sys2Proof.Machine.execHostDataEntry k s
  | .checkTimeout k => Sys2Proof.Machine.execCheckTimeout k s
  | .checkHoldExpiry k => Sys2Proof.Machine.execCheckHoldExpiry k s
  | .lineLossEnd n => Sys2Proof.Machine.execLineLossEnd n s
  | .slotStart d k => Sys2Proof.Machine.execSlotStart d k s
  | .slotCutoff d => Sys2Proof.Machine.execSlotCutoff d s
  | .interruptTaken d mailbox => Sys2Proof.Machine.execInterruptTaken d mailbox s
  | .captureFillStart c => Sys2Proof.Machine.execCaptureFillStart c s
  | .capturePacketEnd c flips => Sys2Proof.Machine.execCapturePacketEnd c flips s
  | .publishArm kind tgt => Sys2Proof.Machine.execPublishArm kind tgt s
  | .publishSwap kind tgt => Sys2Proof.Machine.execPublishSwap kind tgt s
  | .joinerFault d cause => Sys2Proof.Machine.execJoinerFault d cause s
  | .joinerRestartComplete d dmLost => Sys2Proof.Machine.execJoinerRestartComplete d dmLost s
  | .nop d y => Sys2Proof.Machine.execNop d y s
  | .vadd d pred vd va vb => Sys2Proof.Machine.execVadd d pred vd va vb s
  | .vsub d pred vd va vb => Sys2Proof.Machine.execVsub d pred vd va vb s
  | .vaddw d pred vd va vb => Sys2Proof.Machine.execVaddw d pred vd va vb s
  | .vsubw d pred vd va vb => Sys2Proof.Machine.execVsubw d pred vd va vb s
  | .vmul d pred vd va vb md => Sys2Proof.Machine.execVmul d pred vd va vb md s
  | .vmin d pred vd va vb => Sys2Proof.Machine.execVmin d pred vd va vb s
  | .vmax d pred vd va vb => Sys2Proof.Machine.execVmax d pred vd va vb s
  | .vabs d pred vd va => Sys2Proof.Machine.execVabs d pred vd va s
  | .vand d pred vd va vb => Sys2Proof.Machine.execVand d pred vd va vb s
  | .vor d pred vd va vb => Sys2Proof.Machine.execVor d pred vd va vb s
  | .vxor d pred vd va vb => Sys2Proof.Machine.execVxor d pred vd va vb s
  | .vshl d pred vd va md => Sys2Proof.Machine.execVshl d pred vd va md s
  | .vasr d pred vd va md => Sys2Proof.Machine.execVasr d pred vd va md s
  | .vlsr d pred vd va md => Sys2Proof.Machine.execVlsr d pred vd va md s
  | .vshlv d pred vd va vb => Sys2Proof.Machine.execVshlv d pred vd va vb s
  | .vasrv d pred vd va vb => Sys2Proof.Machine.execVasrv d pred vd va vb s
  | .vsel d pred vd va vb => Sys2Proof.Machine.execVsel d pred vd va vb s
  | .vmov d pred vd va => Sys2Proof.Machine.execVmov d pred vd va s
  | .vldi d pred vd imm => Sys2Proof.Machine.execVldi d pred vd imm s
  | .vcmplt d pred pd va vb => Sys2Proof.Machine.execVcmplt d pred pd va vb s
  | .vcmple d pred pd va vb => Sys2Proof.Machine.execVcmple d pred pd va vb s
  | .vcmpeq d pred pd va vb => Sys2Proof.Machine.execVcmpeq d pred pd va vb s
  | .vmac d pred acc va vb => Sys2Proof.Machine.execVmac d pred acc va vb s
  | .vmsu d pred acc va vb => Sys2Proof.Machine.execVmsu d pred acc va vb s
  | .vmpy d pred acc va vb => Sys2Proof.Machine.execVmpy d pred acc va vb s
  | .vmacb d pred acc va vb md => Sys2Proof.Machine.execVmacb d pred acc va vb md s
  | .vclra d pred acc => Sys2Proof.Machine.execVclra d pred acc s
  | .vrsuma d pred acc => Sys2Proof.Machine.execVrsuma d pred acc s
  | .vext d pred vd acc md => Sys2Proof.Machine.execVext d pred vd acc md s
  | .vextv d pred vd acc vb => Sys2Proof.Machine.execVextv d pred vd acc vb s
  | .vnorm d pred vd va => Sys2Proof.Machine.execVnorm d pred vd va s
  | .vnorma d pred vd acc => Sys2Proof.Machine.execVnorma d pred vd acc s
  | .vexp d pred vd va => Sys2Proof.Machine.execVexp d pred vd va s
  | .vexpa d pred vd acc => Sys2Proof.Machine.execVexpa d pred vd acc s
  | .vld d v mm ecc => Sys2Proof.Machine.execVld d v mm ecc s
  | .vst d v mm => Sys2Proof.Machine.execVst d v mm s
  | .vldc d v mm ecc => Sys2Proof.Machine.execVldc d v mm ecc s
  | .vldb d v mm ecc => Sys2Proof.Machine.execVldb d v mm ecc s
  | .sld d sr mm ecc view => Sys2Proof.Machine.execSld d sr mm ecc view s
  | .sst d sr mm => Sys2Proof.Machine.execSst d sr mm s
  | .vget d sr v lane => Sys2Proof.Machine.execVget d sr v lane s
  | .vsplat d v sr => Sys2Proof.Machine.execVsplat d v sr s
  | .pget d sr p => Sys2Proof.Machine.execPget d sr p s
  | .pset d sr p => Sys2Proof.Machine.execPset d sr p s
  | .sadd d dst sa b => Sys2Proof.Machine.execSadd d dst sa b s
  | .ssub d dst sa b => Sys2Proof.Machine.execSsub d dst sa b s
  | .sand d dst sa b => Sys2Proof.Machine.execSand d dst sa b s
  | .sor d dst sa b => Sys2Proof.Machine.execSor d dst sa b s
  | .sxor d dst sa b => Sys2Proof.Machine.execSxor d dst sa b s
  | .sshl d dst sa b => Sys2Proof.Machine.execSshl d dst sa b s
  | .slsr d dst sa b => Sys2Proof.Machine.execSlsr d dst sa b s
  | .sasr d dst sa b => Sys2Proof.Machine.execSasr d dst sa b s
  | .smin d dst sa b => Sys2Proof.Machine.execSmin d dst sa b s
  | .smax d dst sa b => Sys2Proof.Machine.execSmax d dst sa b s
  | .smul d dst sa b => Sys2Proof.Machine.execSmul d dst sa b s
  | .scmplt d dst sa b => Sys2Proof.Machine.execScmplt d dst sa b s
  | .scmpeq d dst sa b => Sys2Proof.Machine.execScmpeq d dst sa b s
  | .sli d dst imm => Sys2Proof.Machine.execSli d dst imm s
  | .shi d dst imm => Sys2Proof.Machine.execShi d dst imm s
  | .amov d dst sa b => Sys2Proof.Machine.execAmov d dst sa b s
  | .aadd d dst b => Sys2Proof.Machine.execAadd d dst b s
  | .aget d dst sa => Sys2Proof.Machine.execAget d dst sa s
  | .mmov d dst sa b => Sys2Proof.Machine.execMmov d dst sa b s
  | .cbset d dst sa sb => Sys2Proof.Machine.execCbset d dst sa sb s
  | .mfs d dst sp => Sys2Proof.Machine.execMfs d dst sp s
  | .mts d sp sa => Sys2Proof.Machine.execMts d sp sa s
  | .br d off => Sys2Proof.Machine.execBr d off s
  | .bz d sa off => Sys2Proof.Machine.execBz d sa off s
  | .bnz d sa off => Sys2Proof.Machine.execBnz d sa off s
  | .bneg d sa off => Sys2Proof.Machine.execBneg d sa off s
  | .call d off => Sys2Proof.Machine.execCall d off s
  | .ret d => Sys2Proof.Machine.execRet d s
  | .reti d => Sys2Proof.Machine.execReti d s
  | .rep d rot stg len cnt rsz => Sys2Proof.Machine.execRep d rot stg len cnt rsz s
  | .yield d => Sys2Proof.Machine.execYield d s
  | .pub d sd tgt kind idx => Sys2Proof.Machine.execPub d sd tgt kind idx s
  | .capreq d sd tgt point dec sa sb => Sys2Proof.Machine.execCapreq d sd tgt point dec sa sb s
  | .crel d tgt bank => Sys2Proof.Machine.execCrel d tgt bank s
  | .rdpc d sd kk => Sys2Proof.Machine.execRdpc d sd kk s
  | .qualityWindowEnd q h => Sys2Proof.Machine.execQualityWindowEnd q h s
  | .refcalStepTimeout step n => Sys2Proof.Machine.execRefcalStepTimeout step n s
  | .refcalComplete vref calOk txOk => Sys2Proof.Machine.execRefcalComplete vref calOk txOk s
  | .bootCommit us => Sys2Proof.Machine.execBootCommit us s
  | .conversionSlot x => Sys2Proof.Machine.execConversionSlot x s
  | .passStart => Sys2Proof.Machine.execPassStart s
  | .seqTimerTrigger => Sys2Proof.Machine.execSeqTimerTrigger s
  | .seqTickTrigger => Sys2Proof.Machine.execSeqTickTrigger s
  | .slewUpdate c => Sys2Proof.Machine.execSlewUpdate c s
  | .spanSwitchWaitEnd c => Sys2Proof.Machine.execSpanSwitchWaitEnd c s
  | .shortCircuitDetect c => Sys2Proof.Machine.execShortCircuitDetect c s
  | .thermalSample d temps => Sys2Proof.Machine.execThermalSample d temps s
  | .shutdownLanesDown => Sys2Proof.Machine.execShutdownLanesDown s
  | .throttleStep r => Sys2Proof.Machine.execThrottleStep r s
  | .aonThermalSample t => Sys2Proof.Machine.execAonThermalSample t s
  | .sleepEntry => Sys2Proof.Machine.execSleepEntry s
  | .entryDrainDone => Sys2Proof.Machine.execEntryDrainDone s
  | .entryDrainTimeout => Sys2Proof.Machine.execEntryDrainTimeout s
  | .entrySaveDone => Sys2Proof.Machine.execEntrySaveDone s
  | .entrySaveTimeout => Sys2Proof.Machine.execEntrySaveTimeout s
  | .entryAvsConfirm => Sys2Proof.Machine.execEntryAvsConfirm s
  | .entryAvsTimeout => Sys2Proof.Machine.execEntryAvsTimeout s
  | .wakeNAssert => Sys2Proof.Machine.execWakeNAssert s
  | .signalDetectWake host lane => Sys2Proof.Machine.execSignalDetectWake host lane s
  | .wakeStepDone saved us => Sys2Proof.Machine.execWakeStepDone saved us s
  | .wakeStepTimeout which => Sys2Proof.Machine.execWakeStepTimeout which s
  | .wakeRetry => Sys2Proof.Machine.execWakeRetry s
  | .avsReadback mv agree => Sys2Proof.Machine.execAvsReadback mv agree s
  | .avsTempStep up => Sys2Proof.Machine.execAvsTempStep up s
  | .vaonMainLoss bkup => Sys2Proof.Machine.execVaonMainLoss bkup s
  | .vaonMainReturn => Sys2Proof.Machine.execVaonMainReturn s
  | .powerGoodLoss pg => Sys2Proof.Machine.execPowerGoodLoss pg s
  | .supplyRecovery => Sys2Proof.Machine.execSupplyRecovery s
  | .refclkLoss => Sys2Proof.Machine.execRefclkLoss s
  | .refclkReturn => Sys2Proof.Machine.execRefclkReturn s
  | .powerOnReset => Sys2Proof.Machine.execPowerOnReset s
  | .resetNAssert => Sys2Proof.Machine.execResetNAssert s
  | .warmResetRecognised => Sys2Proof.Machine.execWarmResetRecognised s
  | .resetEscalation => Sys2Proof.Machine.execResetEscalation s
  | .resetNRelease => Sys2Proof.Machine.execResetNRelease s
  | .trimLoadComplete crc => Sys2Proof.Machine.execTrimLoadComplete crc s
  | .trimRecheck ok => Sys2Proof.Machine.execTrimRecheck ok s
  | .coldStartStepDone role src aonOk => Sys2Proof.Machine.execColdStartStepDone role src aonOk s
  | .coldStartStepTimeout which => Sys2Proof.Machine.execColdStartStepTimeout which s
  | .firmwareVerified readable => Sys2Proof.Machine.execFirmwareVerified readable s
  | .watchdogExpiry => Sys2Proof.Machine.execWatchdogExpiry s
  | .svnFloorRaise => Sys2Proof.Machine.execSvnFloorRaise s
  | .activationPause => Sys2Proof.Machine.execActivationPause s
  | .activationServe ms => Sys2Proof.Machine.execActivationServe ms s
  | .activationTimeout => Sys2Proof.Machine.execActivationTimeout s
  | .healthMirrorWrite => Sys2Proof.Machine.execHealthMirrorWrite s
  | .selftestSliceEnd cut pass => Sys2Proof.Machine.execSelftestSliceEnd cut pass s
  | .selftestHandover cut pass => Sys2Proof.Machine.execSelftestHandover cut pass s
  | .jtagIdcode => Sys2Proof.Machine.execJtagIdcode s
  | .jtagBypass => Sys2Proof.Machine.execJtagBypass s
  | .jtagSamplePreload pins load => Sys2Proof.Machine.execJtagSamplePreload pins load s
  | .jtagExtest pins => Sys2Proof.Machine.execJtagExtest pins s
  | .scanEn zero => Sys2Proof.Machine.execScanEn zero s
  | .mbistEn zero => Sys2Proof.Machine.execMbistEn zero s
  | .dbgEn zero => Sys2Proof.Machine.execDbgEn zero s
  | .ownerKey slot hash => Sys2Proof.Machine.execOwnerKey slot hash s
  | .revokeKey slot => Sys2Proof.Machine.execRevokeKey slot s
  | .tenTrainStepDone p inv0 inv1 swap dir => Sys2Proof.Machine.execTenTrainStepDone p inv0 inv1 swap dir s
  | .tenTrainTimeout p => Sys2Proof.Machine.execTenTrainTimeout p s
  | .tenRetrainDelay p => Sys2Proof.Machine.execTenRetrainDelay p s
  | .tenLinkLoss p lol => Sys2Proof.Machine.execTenLinkLoss p lol s
  | .tickBlock offset ridge hops no near since residence => Sys2Proof.Machine.execTickBlock offset ridge hops no near since residence s
  | .timeBlock no mode => Sys2Proof.Machine.execTimeBlock no mode s
  | .probeSend => Sys2Proof.Machine.execProbeSend s
  | .probeBlock seq turn => Sys2Proof.Machine.execProbeBlock seq turn s
  | .echoBlock seq turn trip => Sys2Proof.Machine.execEchoBlock seq turn trip s
  | .enumBlock addr => Sys2Proof.Machine.execEnumBlock addr s
  | .enumAckBlock high => Sys2Proof.Machine.execEnumAckBlock high s
  | .tenRequestMessage dst src ok bytes => Sys2Proof.Machine.execTenRequestMessage dst src ok bytes s
  | .tenReplyMessage src ok bytes => Sys2Proof.Machine.execTenReplyMessage src ok bytes s
  | .telemetryMessage src ok bytes => Sys2Proof.Machine.execTelemetryMessage src ok bytes s
  | .imageStreamMessage dst ok bytes => Sys2Proof.Machine.execImageStreamMessage dst ok bytes s
  | .alarmBlock addr b12 b13 => Sys2Proof.Machine.execAlarmBlock addr b12 b13 s
  | .sleepNoteBlock addr state => Sys2Proof.Machine.execSleepNoteBlock addr state s
  | .tenonWakeBlock addr => Sys2Proof.Machine.execTenonWakeBlock addr s
  | .bootReqBlock addr wanted => Sys2Proof.Machine.execBootReqBlock addr wanted s
  | .bootReqResend => Sys2Proof.Machine.execBootReqResend s
  | .telemetrySend => Sys2Proof.Machine.execTelemetrySend s
  | .tickTimeout => Sys2Proof.Machine.execTickTimeout s
  | .fwdTimeout => Sys2Proof.Machine.execFwdTimeout s
  | .telemLate => Sys2Proof.Machine.execTelemLate s
  | .joinWaitExpiry => Sys2Proof.Machine.execJoinWaitExpiry s
  | .tickSyncEdge err off => Sys2Proof.Machine.execTickSyncEdge err off s
  | .tickSyncLoss => Sys2Proof.Machine.execTickSyncLoss s
  | .captureTrigger n => Sys2Proof.Machine.execCaptureTrigger n s
  | .captureEnd n => Sys2Proof.Machine.execCaptureEnd n s
  | .histRunEnd n => Sys2Proof.Machine.execHistRunEnd n s
  | .logSuppressionEnd code inst => Sys2Proof.Machine.execLogSuppressionEnd code inst s
  | .powerGoodReturn pg => Sys2Proof.Machine.execPowerGoodReturn pg s
  | .imageWriteDone late fault => Sys2Proof.Machine.execImageWriteDone late fault s
  | .recipeBundleVerified fault => Sys2Proof.Machine.execRecipeBundleVerified fault s
  | .attestationSignDone => Sys2Proof.Machine.execAttestationSignDone s
  | .controllerRestartDone => Sys2Proof.Machine.execControllerRestartDone s
  | .tenonBootTimeout => Sys2Proof.Machine.execTenonBootTimeout s
  | .tenBlockDiscarded p => Sys2Proof.Machine.execTenBlockDiscarded p s

end Sys2Proof.Machine
end

