-- ==== Sys2Proof/Laws/Maps.lean ====
section
/-!
SUPPORT. Sparse maps and the parameter map: reading after writing, and the canonical form kept by every write.
-/

namespace Sys2Proof.Machine

/-! ### Sparse maps -/

/-- Keys of a map all lie above `a`. -/
def keysAbove (a : Nat) (m : List (Nat × Nat)) : Prop := ∀ x ∈ m, a < x.1

theorem spWf_cons {d k v : Nat} {m : List (Nat × Nat)} :
    spWf d ((k, v) :: m) = true ↔ v ≠ d ∧ keysAbove k m ∧ spWf d m = true := by
  induction m generalizing k v with
  | nil => simp [spWf, keysAbove]
  | cons x m ih =>
    obtain ⟨k', v'⟩ := x
    simp only [spWf, Bool.and_eq_true, decide_eq_true_eq]
    constructor
    · rintro ⟨⟨h1, h2⟩, h3⟩
      refine ⟨h1, ?_, h3⟩
      intro y hy
      rcases List.mem_cons.1 hy with rfl | hy
      · exact h2
      · exact Nat.lt_trans h2 ((ih.1 h3).2.1 y hy)
    · rintro ⟨h1, h2, h3⟩
      exact ⟨⟨h1, h2 (k', v') (by simp)⟩, h3⟩

theorem spGet_above {d a : Nat} {m : List (Nat × Nat)} (h : keysAbove a m) : spGet d m a = d := by
  induction m with
  | nil => rfl
  | cons x m ih =>
    obtain ⟨k, v⟩ := x
    have hk : a < k := h (k, v) (by simp)
    rw [spGet, if_neg (by omega)]
    exact ih fun y hy => h y (List.mem_cons_of_mem _ hy)

theorem spGet_spPut_same (d : Nat) (m : List (Nat × Nat)) (a v : Nat) : spGet d (spPut m a v) a = v := by
  induction m with
  | nil => simp [spPut, spGet]
  | cons x m ih =>
    obtain ⟨k, w⟩ := x
    simp only [spPut]
    split
    · simp [spGet]
    · split
      · simp [spGet]
      · rw [spGet, if_neg (by omega), ih]

theorem spGet_spPut_ne (d : Nat) (m : List (Nat × Nat)) {a b : Nat} (v : Nat) (h : a ≠ b) :
    spGet d (spPut m a v) b = spGet d m b := by
  induction m with
  | nil => simp [spPut, spGet, h]
  | cons x m ih =>
    obtain ⟨k, w⟩ := x
    simp only [spPut]
    split
    · simp [spGet, h]
    · split
      · rename_i h1; subst h1; simp [spGet, h]
      · simp only [spGet]; split
        · rfl
        · exact ih

theorem spGet_spDel_ne (d : Nat) (m : List (Nat × Nat)) {a b : Nat} (h : a ≠ b) : spGet d (spDel m a) b = spGet d m b := by
  induction m with
  | nil => rfl
  | cons x m ih =>
    obtain ⟨k, w⟩ := x
    simp only [spDel]
    split
    · rename_i h1; subst h1; simp [spGet, h, ih]
    · simp only [spGet]; split
      · rfl
      · exact ih

theorem spGet_spDel_same (d : Nat) (m : List (Nat × Nat)) (a : Nat) : spGet d (spDel m a) a = d := by
  induction m with
  | nil => rfl
  | cons x m ih =>
    obtain ⟨k, v⟩ := x
    simp only [spDel]
    split
    · exact ih
    · rename_i h1; rw [spGet, if_neg h1]; exact ih

/-- A key reads back what was written. -/
theorem spGet_spSet_same (d : Nat) (m : List (Nat × Nat)) (a v : Nat) : spGet d (spSet d m a v) a = v := by
  unfold spSet
  split
  · rename_i hv; rw [spGet_spDel_same, hv]
  · exact spGet_spPut_same d m a v

/-- Every other key reads as before. -/
theorem spGet_spSet_ne (d : Nat) (m : List (Nat × Nat)) {a b : Nat} (v : Nat) (h : a ≠ b) :
    spGet d (spSet d m a v) b = spGet d m b := by
  unfold spSet
  split
  · exact spGet_spDel_ne d m h
  · exact spGet_spPut_ne d m v h

theorem keysAbove_spPut {a b v : Nat} {m : List (Nat × Nat)} (h : keysAbove a m) (hb : a < b) : keysAbove a (spPut m b v) := by
  induction m with
  | nil => simp [spPut, keysAbove, hb]
  | cons x m ih =>
    obtain ⟨k, w⟩ := x
    have hm : keysAbove a m := fun y hy => h y (List.mem_cons_of_mem _ hy)
    have hk : a < k := h (k, w) (by simp)
    simp only [spPut]
    split
    · intro y hy
      rcases List.mem_cons.1 hy with rfl | hy
      · exact hb
      · exact h y hy
    · split
      · intro y hy
        rcases List.mem_cons.1 hy with rfl | hy
        · exact hb
        · exact hm y hy
      · intro y hy
        rcases List.mem_cons.1 hy with rfl | hy
        · exact hk
        · exact ih hm y hy

theorem keysAbove_spDel {a b : Nat} {m : List (Nat × Nat)} (h : keysAbove a m) : keysAbove a (spDel m b) := by
  induction m with
  | nil => exact h
  | cons x m ih =>
    obtain ⟨k, w⟩ := x
    have hm : keysAbove a m := fun y hy => h y (List.mem_cons_of_mem _ hy)
    simp only [spDel]
    split
    · exact ih hm
    · intro y hy
      rcases List.mem_cons.1 hy with rfl | hy
      · exact h _ (by simp)
      · exact ih hm y hy

theorem spWf_spPut {d : Nat} {m : List (Nat × Nat)} (h : spWf d m = true) {a v : Nat} (hv : v ≠ d) : spWf d (spPut m a v) = true := by
  induction m with
  | nil => simp [spPut, spWf, hv]
  | cons x m ih =>
    obtain ⟨k, w⟩ := x
    obtain ⟨hw, hk, hm⟩ := spWf_cons.1 h
    simp only [spPut]
    split
    · rename_i hlt
      refine spWf_cons.2 ⟨hv, ?_, h⟩
      intro y hy
      rcases List.mem_cons.1 hy with rfl | hy
      · exact hlt
      · exact Nat.lt_trans hlt (hk y hy)
    · split
      · rename_i _ he; subst he; exact spWf_cons.2 ⟨hv, hk, hm⟩
      · exact spWf_cons.2 ⟨hw, keysAbove_spPut hk (by omega), ih hm⟩

theorem spWf_spDel {d : Nat} {m : List (Nat × Nat)} (h : spWf d m = true) (a : Nat) : spWf d (spDel m a) = true := by
  induction m with
  | nil => rfl
  | cons x m ih =>
    obtain ⟨k, w⟩ := x
    obtain ⟨hw, hk, hm⟩ := spWf_cons.1 h
    simp only [spDel]
    split
    · exact ih hm
    · exact spWf_cons.2 ⟨hw, keysAbove_spDel hk, ih hm⟩

/-- A write keeps the canonical form. -/
theorem spWf_spSet {d : Nat} {m : List (Nat × Nat)} (h : spWf d m = true) (a v : Nat) : spWf d (spSet d m a v) = true := by
  unfold spSet
  split
  · exact spWf_spDel h a
  · rename_i hv; exact spWf_spPut h hv

/-- So does a run of writes: flash, data memories and housekeeping memory are written this way. -/
theorem spWf_spFill {d : Nat} {m : List (Nat × Nat)} (h : spWf d m = true) (a : Nat) (l : List Nat) : spWf d (spFill d m a l) = true := by
  induction l generalizing m a with
  | nil => exact h
  | cons v vs ih => exact ih (spWf_spSet h a v) (a + 1)

/-! ### The parameter map -/

theorem Regs.wf_cons {a v : Nat} {r : Regs} :
    Regs.wf ((a, v) :: r) = true ↔ v ≠ resetVal a ∧ v < 2 ^ fieldWidth a ∧ keysAbove a r ∧ Regs.wf r = true := by
  induction r generalizing a v with
  | nil => simp [Regs.wf, keysAbove]
  | cons x r ih =>
    obtain ⟨b, w⟩ := x
    simp only [Regs.wf, Bool.and_eq_true, decide_eq_true_eq]
    constructor
    · rintro ⟨⟨⟨h1, h2⟩, h3⟩, h4⟩
      refine ⟨h1, h2, ?_, h4⟩
      intro y hy
      rcases List.mem_cons.1 hy with rfl | hy
      · exact h3
      · exact Nat.lt_trans h3 ((ih.1 h4).2.2.1 y hy)
    · rintro ⟨h1, h2, h3, h4⟩
      exact ⟨⟨⟨h1, h2⟩, h3 (b, w) (by simp)⟩, h4⟩

theorem Regs.get_eq_spGet (r : Regs) (a : Nat) : r.get a = spGet (resetVal a) r a := by
  induction r with
  | nil => rfl
  | cons x r ih =>
    obtain ⟨k, v⟩ := x
    simp only [Regs.get, spGet, ih]

theorem Regs.get_set_same (r : Regs) (a v : Nat) : (r.set a v).get a = v % 2 ^ fieldWidth a := by
  rw [Regs.get_eq_spGet, Regs.set, spGet_spSet_same]

theorem Regs.get_set_ne (r : Regs) {a b : Nat} (v : Nat) (h : a ≠ b) : (r.set a v).get b = r.get b := by
  rw [Regs.get_eq_spGet, Regs.get_eq_spGet, Regs.set]
  unfold spSet
  split
  · exact spGet_spDel_ne _ r h
  · exact spGet_spPut_ne _ r _ h

theorem Regs.wf_del {r : Regs} (h : r.wf = true) (a : Nat) : Regs.wf (spDel r a) = true := by
  induction r with
  | nil => rfl
  | cons x r ih =>
    obtain ⟨k, w⟩ := x
    obtain ⟨h1, h2, h3, h4⟩ := Regs.wf_cons.1 h
    simp only [spDel]
    split
    · exact ih h4
    · exact Regs.wf_cons.2 ⟨h1, h2, keysAbove_spDel h3, ih h4⟩

theorem Regs.wf_put {r : Regs} (h : r.wf = true) {a v : Nat} (hv : v ≠ resetVal a) (hlt : v < 2 ^ fieldWidth a) :
    Regs.wf (spPut r a v) = true := by
  induction r with
  | nil => simp [spPut, Regs.wf, hv, hlt]
  | cons x r ih =>
    obtain ⟨k, w⟩ := x
    obtain ⟨h1, h2, h3, h4⟩ := Regs.wf_cons.1 h
    simp only [spPut]
    split
    · rename_i hk
      refine Regs.wf_cons.2 ⟨hv, hlt, ?_, h⟩
      intro y hy
      rcases List.mem_cons.1 hy with rfl | hy
      · exact hk
      · exact Nat.lt_trans hk (h3 y hy)
    · split
      · rename_i _ he; subst he; exact Regs.wf_cons.2 ⟨hv, hlt, h3, h4⟩
      · exact Regs.wf_cons.2 ⟨h1, h2, keysAbove_spPut h3 (by omega), ih h4⟩

theorem Regs.wf_set {r : Regs} (h : r.wf = true) (a v : Nat) : (r.set a v).wf = true := by
  unfold Regs.set spSet
  split
  · exact Regs.wf_del h a
  · rename_i hv; exact Regs.wf_put h hv (Nat.mod_lt _ (Nat.two_pow_pos _))

theorem Regs.get_lt {r : Regs} (h : r.wf = true) {a : Nat} (ha : resetVal a < 2 ^ fieldWidth a) : r.get a < 2 ^ fieldWidth a := by
  induction r with
  | nil => exact ha
  | cons x r ih =>
    obtain ⟨k, v⟩ := x
    obtain ⟨_, h2, _, h4⟩ := Regs.wf_cons.1 h
    simp only [Regs.get]
    split
    · rename_i h1; subst h1; exact h2
    · exact ih h4

/-- The parameter map of a state is in canonical form. -/
def State.regsWf (s : State) : Bool := s.regs.wf

@[simp] theorem State.wr_regs (s : State) (a v : Nat) : (s.wr a v).regs = s.regs.set a v := rfl
theorem State.wr_rd_same (s : State) (a v : Nat) : (s.wr a v).rd a = v % 2 ^ fieldWidth a :=
  Regs.get_set_same s.regs a v
theorem State.wr_rd_ne (s : State) {a b : Nat} (v : Nat) (h : a ≠ b) : (s.wr a v).rd b = s.rd b := Regs.get_set_ne s.regs v h
theorem State.wr_wf {s : State} (h : s.regs.wf = true) (a v : Nat) : (s.wr a v).regs.wf = true := Regs.wf_set h a v

/-! ### Lists of records -/

@[simp] theorem modNth_getD_same {α : Type} (d : α) (l : List α) (i : Nat) (f : α → α) :
    (modNth d l i f).getD i d = f (l.getD i d) := by
  induction i generalizing l with
  | zero => cases l <;> simp [modNth]
  | succ i ih => cases l with
    | nil => simpa [modNth] using ih []
    | cons x xs => simpa [modNth] using ih xs
theorem modNth_getD_ne {α : Type} (d : α) (l : List α) {i j : Nat} (f : α → α) (h : i ≠ j) :
    (modNth d l i f).getD j d = l.getD j d := by
  induction i generalizing l j with
  | zero => cases j with
    | zero => exact absurd rfl h
    | succ j => cases l <;> simp [modNth]
  | succ i ih => cases j with
    | zero => cases l <;> simp [modNth]
    | succ j => cases l with
      | nil => simpa [modNth] using ih [] (by omega : i ≠ j)
      | cons x xs => simpa [modNth] using ih xs (by omega : i ≠ j)
theorem modNth_length {α : Type} (d : α) (l : List α) (i : Nat) (f : α → α) (h : i < l.length) :
    (modNth d l i f).length = l.length := by
  induction i generalizing l with
  | zero => cases l <;> simp_all [modNth]
  | succ i ih => cases l with
    | nil => simp at h
    | cons x xs => simp [modNth, ih xs (by simpa using h)]

end Sys2Proof.Machine
end

