-- ==== Sys2Proof/Safety.lean ====
section
/-!
DEFINITION. What counts as a safe run: every command of a sender is well formed, so no step stops, and the open-drain
outputs tell the truth about their causes.
-/

namespace Sys2Proof.Safety

open Machine

/-- Does this outcome go on? -/
def goesOn (r : Result) : Bool :=
  match r with
  | .next _ => true
  | .fault _ => false
  | .refused _ => false

/-- The open-drain outputs follow their causes (R482, R483): the device asserts IRQ_N while an enabled bit of IRQ_STAT is
set, FAULT_N while a bit of FAULT_STAT is set. -/
def linesTrue (s : State) : Bool := decide (s.sys.pins.irq = s.irqN ∧ s.sys.pins.fault = s.faultN)

/-- A state in which the next step is safe: the queue is empty, or its front command runs. -/
def stepSafe (s : State) : Bool := goesOn (step s)

end Sys2Proof.Safety
end

