-- ==== Sys2Proof/Certificates/Slice0/Obligations.lean ====
section
/-!
DEFINITION. The statements about the machine, for the provers. Each says, for a group of commands, that the command
completes and what the next state holds, what it leaves unchanged, or what the whole machine promises.
-/

namespace Sys2Proof.Spec

open Sys2Proof.Machine

/-- The reply queue of a request's transport gains exactly this reply (Table 10-2). -/
def Answers (s t : State) (op : Nat) (r : Request) (st : Status) (final : Bool) (b : Body) : Prop :=
  (t.trans r.via).replies = (s.trans r.via).replies ++ [⟨s.refFor op r, st, s.tickno % 65536, b, final⟩]

/-- A final OK reply with this payload. -/
def AnswersOk (s t : State) (op : Nat) (r : Request) (bytes : List Byte) : Prop := Answers s t op r .ok true (.data bytes)

/-- An ACCEPTED reply with this payload. -/
def AnswersAccepted (s t : State) (op : Nat) (r : Request) (bytes : List Byte) : Prop :=
  Answers s t op r .accepted false (.data bytes)

/-- ACCEPTED without a payload and at once the final OK, of a long-running request whose operation has ended (R301). -/
def AnswersDone (s t : State) (op : Nat) (r : Request) (bytes : List Byte) : Prop :=
  (t.trans r.via).replies = (s.trans r.via).replies ++
    [⟨s.refFor op r, .accepted, s.tickno % 65536, .data [], false⟩, ⟨s.refFor op r, .ok, s.tickno % 65536, .data bytes, true⟩]

/-- The transport has room for the request and its replies (R295), and its tag is not in use (R294). -/
abbrev Fits (s : State) (r : Request) : Prop :=
  (s.trans r.via).replies.length < 8 ∧ (s.trans r.via).outstanding.length < 4 ∧
    ∀ x ∈ (s.trans r.via).outstanding, x.tag ≠ r.tag

/-- A request for this device that the management controller serves now: it fits, its reserved flag bits are zero, it is
not to be forwarded, the power state, the shutdown and the recovery refuse nothing, and on the Tenon transport the rafter
has joined. -/
abbrev Served (s : State) (r : Request) : Prop :=
  Fits s r ∧ bits r.flags.toNat 6 1 = 0 ∧ r.flags.getLsbD 7 = false ∧ s.rd PWR.STATE < 2 ∧ s.sys.mcState = 2 ∧
    s.sys.recovery = false ∧ (r.via = .tenon → s.joined = true)

/-- The request commands with their opcodes (Table 10-4). -/
def requestRows : List ((Request → Instr) × Nat) :=
  [(.identify, 0x01), (.status, 0x02), (.stageWrite, 0x10), (.stageRead, 0x11), (.liveWrite, 0x12), (.read, 0x13),
    (.commit, 0x18), (.discard, 0x19), (.laneUp, 0x20), (.laneDown, 0x21), (.calibrate, 0x30), (.syscalPoint, 0x31),
    (.sleep, 0x40), (.wake, 0x41), (.tableLoad, 0x50), (.tableRead, 0x51), (.recipeLoad, 0x52), (.captureArm, 0x60),
    (.captureRead, 0x61), (.imageWrite, 0x70), (.imageActivate, 0x71), (.shutdown, 0x78), (.retireUnit, 0x7C),
    (.logRead, 0x7E), (.snapshot, 0x7F)]

/-- Every parameter field outside these blocks reads as before. -/
def KeepsFields (s t : State) (blocks : List Nat) : Prop := ∀ a, blkOf a ∉ blocks → t.rd a = s.rd a

/-- Everything of the data path and the tables is as before: lanes, table memories, Joiners, capture FIFOs and rings,
publishes, commit domains, loads, management-memory masters, unit commits pending or asked for, lane requests, and the
host-code taps. -/
structure KeepsPath (s t : State) : Prop where
  rx : t.rx = s.rx
  tx : t.tx = s.tx
  host : t.host = s.host
  ctxT : t.ctxT = s.ctxT
  shpT : t.shpT = s.shpT
  track : t.track = s.track
  taps : t.taps = s.taps
  joiners : t.joiners = s.joiners
  fifos : t.fifos = s.fifos
  pubs : t.pubs = s.pubs
  pubSwaps : t.pubSwaps = s.pubSwaps
  caps : t.caps = s.caps
  hists : t.hists = s.hists
  doms : t.doms = s.doms
  live : t.live = s.live
  loads : t.loads = s.loads
  mgmt : t.mgmt = s.mgmt
  unit : t.unit = s.unit
  asked : t.asked = s.asked
  lanes : t.lanes = s.lanes

/-- The transports, their queues and the long-running operations are as before. -/
structure KeepsRequests (s t : State) : Prop where
  spi : t.spi = s.spi
  i2c : t.i2c = s.i2c
  tenon : t.tenon = s.tenon
  nextRid : t.nextRid = s.nextRid
  longOps : t.longOps = s.longOps

/-- The event log and its books are as before. -/
structure KeepsLog (s t : State) : Prop where
  log : t.log = s.log
  recent : t.recent = s.recent
  suppr : t.suppr = s.suppr
  die1Log : t.die1Log = s.die1Log

/-- The tick counters, the correction of the tick and both snapshot images are as before. -/
structure KeepsTick (s t : State) : Prop where
  tickno : t.tickno = s.tickno
  tickAdj : t.tickAdj = s.tickAdj
  tick1 : t.tick1 = s.tick1
  image0 : t.image0 = s.image0
  image1 : t.image1 = s.image1
  seq0 : t.seq0 = s.seq0
  seq1 : t.seq1 = s.seq1

end Sys2Proof.Spec

open Sys2Proof Sys2Proof.Machine Sys2Proof.Spec

/-! ### The queue and the whole machine -/

/-- A step takes the front command and runs exec with the queue's rest, and idles on an empty queue: the queue and the
idling are the model's own (log 10). -/
def Obligations.StepRunsFrontCommand : Prop :=
  (∀ (c : Instr) (rest : List Instr) (s : State),
    step { s with pending := c :: rest } = exec c { s with pending := rest }) ∧
  (∀ s : State, s.pending = [] → step s = .next s) ∧ ∀ (s : State) (nbits w : Nat), s.withFetchWord nbits w = s

/-- No command changes the queue; k steps take the first k commands. -/
def Obligations.CommandsTakenInOrder : Prop :=
  (∀ (c : Instr) (s t : State), exec c s = .next t → t.pending = s.pending) ∧
  ∀ (cs rest : List Instr) (s t : State), s.pending = cs ++ rest → core.run cs.length s = .next t → t.pending = rest

/-- R482, R483: the open-drain outputs follow their causes after every command and across every step. -/
def Obligations.InterruptLinesFollowCauses : Prop :=
  (∀ (c : Instr) (s t : State), exec c s = .next t →
    (t.sys.pins.irq = true ↔ ∃ i, t.bit OBS.IRQ_STAT i = true ∧ t.bit OBS.IRQ_MASK i = true) ∧
    (t.sys.pins.fault = true ↔ ∃ i, t.bit OBS.FAULT_STAT i = true)) ∧
  ∀ s t : State, Safety.linesTrue s = true → step s = .next t → Safety.linesTrue t = true

/-- The state after reset, with reset values of Tables 2-14, 3-11 and 9-14. -/
def Obligations.ResetStateMeetsInvariants : Prop :=
  State.reset.pending = [] ∧ State.reset.tickno = 0 ∧ State.reset.regs = [] ∧ State.reset.regs.wf = true ∧
  Safety.linesTrue State.reset = true ∧ State.reset.sys.pins.irq = false ∧ State.reset.sys.pins.fault = false ∧
  (∀ n < 8, State.reset.rd (LRX.LOS_TICKS n) = 4 ∧ State.reset.rd (LTX.SWING n) = 21 ∧ State.reset.rd (LRX.FFE_TAPS n) = 33 ∧
    State.reset.rd (LRX.STATE n) = 0 ∧ State.reset.rd (LTX.STATE n) = 0) ∧
  State.reset.rd DEV.QUAL_WIN = 1024 ∧ State.reset.rd DEV.PACKAGE = 1

/-- The one operation behind every field write (R324). -/
def Obligations.FieldWritesKeepOneCanonicalMap : Prop :=
  ∀ (s : State) (a : Nat) (vs : List Nat),
    (∀ i < vs.length, (s.wrList a vs).rd (a + i) = vs.getD i 0 % 2 ^ fieldWidth (a + i)) ∧
    (∀ b, (b < a ∨ a + vs.length ≤ b) → (s.wrList a vs).rd b = s.rd b) ∧
    (s.regs.wf = true → (s.wrList a vs).regs.wf = true) ∧
    { s.wrList a vs with regs := s.regs } = s

/-! ### Packets, replies and the checks of a request -/

/-- The bytes of a packet carry its request whole. -/
def Obligations.GoodPacketIsItsRequest : Prop :=
  ∀ x ∈ requestRows, ∀ (via : Via) (tag flags : Byte) (ps : List Byte) (s : State), ps.length ≤ 4096 →
    ∃ t, exec (.packetWrite via (requestBytes x.2 tag flags ps)) s = .next t ∧ exec (x.1 ⟨via, tag, flags, ps⟩) s = .next t

/-- Steps 1 to 4 of R294. -/
def Obligations.BadPacketsAreRejected : Prop :=
  ∀ (via : Via) (bs : List Byte) (s : State),
    let len := getLe bs 4 2
    let op := getLe bs 1 1
    let r : Request := ⟨via, bs.getD 2 0, if getLe bs 6 2 ≠ 0 then bs.getD 3 0 ||| 2 else bs.getD 3 0, (bs.drop 8).take len⟩
    (bs.getD 0 0 ≠ 0xA7 → ∃ t, exec (.packetWrite via bs) s = .next t ∧
      t.rd DEV.CMD_DROP_CNT = (s.rd DEV.CMD_DROP_CNT + 1) % 2 ^ 32 ∧ KeepsRequests s t ∧ KeepsPath s t ∧
      (∀ a, a ≠ DEV.CMD_DROP_CNT → t.rd a = s.rd a)) ∧
    (bs.getD 0 0 = 0xA7 → (s.trans via).outstanding.length < 4 →
      (4096 < len ∨ bs.length ≠ len + 10 → ∃ t, exec (.packetWrite via bs) s = .next t ∧
        Answers s t op r .badLength true (.err "BAD_LENGTH" 0xFFFFFFFF 0) ∧ KeepsPath s t ∧
        ∀ a, a ≠ OBS.IRQ_STAT → t.rd a = s.rd a) ∧
      (len ≤ 4096 → bs.length = len + 10 → getLe bs (len + 8) 2 ≠ (crc16 (bs.take (len + 8))).toNat →
        ∃ t, exec (.packetWrite via bs) s = .next t ∧ Answers s t op r .badCrc true (.err "BAD_CRC" 0xFFFFFFFF 0) ∧
          KeepsPath s t ∧ ∀ a, a ≠ OBS.IRQ_STAT → t.rd a = s.rd a) ∧
      (len ≤ 4096 → bs.length = len + 10 → getLe bs (len + 8) 2 = (crc16 (bs.take (len + 8))).toNat → op ∉ opcodes →
        ∃ t, exec (.packetWrite via bs) s = .next t ∧ Answers s t op r .badOpcode true (.err "BAD_OPCODE" 0xFFFFFFFF 0) ∧
          KeepsPath s t ∧ ∀ a, a ≠ OBS.IRQ_STAT → t.rd a = s.rd a))

/-- The checks every request passes before its opcode's own. -/
def Obligations.RequestsRefusedInOrder : Prop :=
  ∀ x ∈ requestRows, ∀ (r : Request) (s : State), (s.trans r.via).replies.length < 8 →
    (4 ≤ (s.trans r.via).outstanding.length → ∃ t, exec (x.1 r) s = .next t ∧
      Answers s t x.2 r .busy true (.err "REQ_FULL" 0xFFFFFFFF 0) ∧
      (t.trans r.via).outstanding = (s.trans r.via).outstanding ∧ KeepsPath s t ∧
      ∀ a, a ≠ OBS.IRQ_STAT → t.rd a = s.rd a) ∧
    ((s.trans r.via).outstanding.length < 4 →
      ((∃ y ∈ (s.trans r.via).outstanding, y.tag = r.tag) → ∃ t, exec (x.1 r) s = .next t ∧
        Answers s t x.2 r .denied true (.err "TAG_IN_USE" 0xFFFFFFFF 0) ∧ KeepsPath s t ∧
        ∀ a, a ≠ OBS.IRQ_STAT → t.rd a = s.rd a) ∧
      ((∀ y ∈ (s.trans r.via).outstanding, y.tag ≠ r.tag) →
        (bits r.flags.toNat 6 1 ≠ 0 → ∃ t, exec (x.1 r) s = .next t ∧
          Answers s t x.2 r .badAddress true (.err "BAD_ADDRESS" 0xFFFFFFFF 0) ∧ KeepsPath s t ∧
          ∀ a, a ≠ OBS.IRQ_STAT → t.rd a = s.rd a) ∧
        (bits r.flags.toNat 6 1 = 0 → r.flags.getLsbD 7 = true → s.rd DEV.ROLE ≠ 1 → ∃ t, exec (x.1 r) s = .next t ∧
          Answers s t x.2 r .denied true (.err "NOT_RIDGE" 0xFFFFFFFF 0) ∧ KeepsPath s t ∧
          ∀ a, a ≠ OBS.IRQ_STAT → t.rd a = s.rd a) ∧
        (bits r.flags.toNat 6 1 = 0 → (r.flags.getLsbD 7 = false ∨ s.rd DEV.ROLE = 1) →
          (2 ≤ s.rd PWR.STATE → x.2 ≠ 0x41 → ∃ t, exec (x.1 r) s = .next t ∧
            Answers s t x.2 r .busy true (.err "ASLEEP" 0xFFFFFFFF (s.rd PWR.STATE)) ∧ KeepsPath s t ∧
            ∀ a, a ≠ OBS.IRQ_STAT → t.rd a = s.rd a) ∧
          (s.rd PWR.STATE < 2 → s.sys.mcState = 6 → x.2 ∉ [0x01, 0x02, 0x13, 0x7E] → ∃ t, exec (x.1 r) s = .next t ∧
            Answers s t x.2 r .precondition true (.err "SHUT" 0xFFFFFFFF 0) ∧ KeepsPath s t ∧
            ∀ a, a ≠ OBS.IRQ_STAT → t.rd a = s.rd a) ∧
          (s.rd PWR.STATE < 2 → s.sys.mcState ≠ 2 → s.sys.mcState ≠ 6 → s.sys.recovery = false →
            ∃ t, exec (x.1 r) s = .next t ∧ (t.trans r.via).replies = (s.trans r.via).replies ∧
              (t.trans r.via).waiting = (s.trans r.via).waiting ++ [⟨s.refFor x.2 r, r.flags, r.params, false⟩] ∧
              KeepsPath s t ∧ ∀ a, t.rd a = s.rd a))))

/-- R295: the reply queue. -/
def Obligations.ReplyReadTakesHead : Prop :=
  ∀ (via : Via) (s : State),
    (∀ x rest, (s.trans via).replies = x :: rest →
      (∃ t, exec (.replyRead via false) s = .next t ∧ (t.trans via).out = x.bytes ∧
        (t.trans via).replies = x :: rest ∧ (t.trans via).outstanding = (s.trans via).outstanding ∧ KeepsPath s t ∧
        ∀ a, t.rd a = s.rd a) ∧
      (via ≠ .tenon → (s.trans via).waiting = [] →
        ∃ t, exec (.replyRead via true) s = .next t ∧ (t.trans via).out = x.bytes ∧ (t.trans via).replies = rest ∧
          (x.final = true → ∀ o ∈ (t.trans via).outstanding, o.rid ≠ x.ref.rid) ∧
          (x.final = false → (t.trans via).outstanding = (s.trans via).outstanding) ∧
          (∀ o ∈ (s.trans via).outstanding, o.rid ≠ x.ref.rid → o ∈ (t.trans via).outstanding) ∧ KeepsPath s t ∧
          ∀ a, a ≠ OBS.IRQ_STAT → t.rd a = s.rd a)) ∧
    ((s.trans via).replies = [] → ∃ t, exec (.replyRead via false) s = .next t ∧ (t.trans via).out = [0] ∧
      (t.trans via).replies = [] ∧ KeepsPath s t ∧ ∀ a, t.rd a = s.rd a)

/-- Table 10-10 and the transports' own events. -/
def Obligations.StatusBlockAndTransportEvents : Prop :=
  (∀ s : State, s.statusBlock.length = 64 ∧ s.statusBlock.take 2 = [1, 0] ∧ (s.statusBlock.drop 2).take 6 = le 6 s.tickno ∧
    s.statusBlock.getD 8 0 = byteOf (s.rd PWR.STATE) ∧
    s.statusBlock.drop 62 = le 2 (crc16 (s.statusBlock.take 62)).toNat) ∧
  (∀ (via : Via) (ptr : BitVec 6) (n : Nat) (s : State), ∃ t, exec (.statusBlockRead via ptr n) s = .next t ∧
    (t.trans via).out.length = n ∧
    (∀ i < n, (t.trans via).out.getD i 0 = s.statusBlock.getD ((ptr.toNat + i) % 64) 0) ∧
    (t.trans via).replies = (s.trans via).replies ∧ KeepsPath s t ∧ KeepsLog s t ∧ KeepsTick s t ∧ ∀ a, t.rd a = s.rd a) ∧
  (∀ s : State, ∃ t, exec .i2cSclTimeout s = .next t ∧ t.i2c.out = [] ∧ t.i2c.replies = s.i2c.replies ∧
    t.i2c.outstanding = s.i2c.outstanding ∧ KeepsPath s t ∧ KeepsLog s t ∧ KeepsTick s t ∧ ∀ a, t.rd a = s.rd a) ∧
  (∀ (via : Via) (tag : Byte) (ph pc el re : Nat) (s : State), ∃ t, exec (.progressUpdate via tag ph pc el re) s = .next t ∧
    t.longOps.length = s.longOps.length ∧
    (∀ (i : Nat) (o : LongOp), s.longOps[i]? = some o → t.longOps[i]? = some (if o.ref.via = via ∧ o.ref.tag = tag then
      { o with phase := ph % 256, percent := min 100 pc, elapsed := el % 2 ^ 32, remaining := re % 2 ^ 32 } else o)) ∧
    KeepsPath s t ∧ KeepsLog s t ∧ KeepsTick s t ∧ ∀ a, t.rd a = s.rd a)

/-! ### The services of the requests -/

/-- What the reading requests return (Table 10-4). -/
def Obligations.InformationRequestsReply : Prop :=
  (∀ s : State, s.identity.length = 64 ∧ s.identity.take 8 = [0x55, 0x58, 0x47, 0x33, 0x32, 0x30, 0x38, 0x00] ∧
    s.summary.length = 36) ∧
  ∀ (r : Request) (s : State), Served s r →
    (r.params = [] → ∃ t, exec (.identify r) s = .next t ∧ AnswersOk s t 0x01 r s.identity ∧ KeepsPath s t ∧
      ∀ a, a ≠ OBS.IRQ_STAT → t.rd a = s.rd a) ∧
    (r.params = [] → ∃ t, exec (.status r) s = .next t ∧ AnswersOk s t 0x02 r s.summary ∧ KeepsPath s t ∧
      ∀ a, a ≠ OBS.IRQ_STAT → t.rd a = s.rd a) ∧
    (∀ (tag : Byte) (o : LongOp), r.params = [1, tag, 0] →
      s.longOps.find? (fun o => decide (o.ref.via = .spi ∧ o.ref.tag = tag)) = some o →
      ∃ t, exec (.status r) s = .next t ∧ KeepsPath s t ∧ AnswersOk s t 0x02 r
        ([byteOf o.ref.op, byteOf o.phase, byteOf o.percent, 0] ++ le 4 o.elapsed ++ le 4 o.remaining ++
          le 4 (o.start % 2 ^ 32))) ∧
    (∀ n, 1 ≤ n → n ≤ 340 → getLe r.params 0 2 = n → getLe r.params 2 2 = 0 → r.params.length = 4 + 4 * n →
      (∀ a ∈ addrs r.params n, (fieldRow a).isSome ∧ isRing a = false ∧ a ≠ THM.FLAGS) →
      ∃ t, exec (.read r) s = .next t ∧ KeepsPath s t ∧ (∀ a, a ≠ OBS.IRQ_STAT → t.rd a = s.rd a) ∧
        AnswersOk s t 0x13 r (le 8 s.tickno ++ (addrs r.params n).flatMap fun a => le 8 (s.readVal a))) ∧
    (∀ a, getLe r.params 0 2 = 1 → getLe r.params 2 2 = 0 → r.params.length = 8 → getLe r.params 4 4 = a →
      (fieldRow a).isSome → (s.dom (s.domOfAddr a)).commit = none →
      ∃ t, exec (.stageRead r) s = .next t ∧ KeepsPath s t ∧
        (∀ v, (s.dom (s.domOfAddr a)).stagedVal a = some v → AnswersOk s t 0x11 r (le 8 (readsAs a v) ++ [1, 0, 0, 0])) ∧
        ((s.dom (s.domOfAddr a)).stagedVal a = none → AnswersOk s t 0x11 r (le 8 (s.readVal a) ++ [0, 0, 0, 0]))) ∧
    (∀ n, 1 ≤ n → n ≤ 508 → getLe r.params 0 2 = n → getLe r.params 2 2 = 0 → r.params.length = 4 + 4 * n →
      (∀ a ∈ addrs r.params n, imaged 0 a = true) →
      ∃ t, exec (.snapshot r) s = .next t ∧ KeepsPath s t ∧
        AnswersOk s t 0x7F r (le 4 s.seq0 ++ le 6 (s.rd (FEC.SNAP_TICKNO 0)) ++ [0, 0] ++
          (addrs r.params n).flatMap fun a => le 8 (s.readVal a))) ∧
    (∀ n, 1 ≤ n → getLe r.params 0 4 = 0xFFFFFFFF → getLe r.params 4 1 = n → getLe r.params 5 3 = 0 → r.params.length = 8 →
      ∃ t, exec (.logRead r) s = .next t ∧ KeepsPath s t ∧ KeepsLog s t ∧
        AnswersOk s t 0x7E r (le 4 (s.rd OBS.LOG_OLDEST) ++ [byteOf (s.log.take n).length, 0, 0, 0] ++
          (s.log.take n).flatMap LogEntry.bytes)) ∧
    (∀ n k, n < 8 → 1 ≤ k → k ≤ 228 → (s.rxL n).llr.length = 228 → r.params = [7, byteOf n, 1, 0, 0, 0, byteOf k, 0, 0] →
      ∃ t, exec (.tableRead r) s = .next t ∧ KeepsPath s t ∧
        AnswersOk s t 0x51 r (le 2 k ++ [0, 0, 0xFF, 0xFF, 0, 0] ++ ((s.rxL n).llr.take k).flatMap (le 2))) ∧
    (∀ n k p, n < 8 → 1 ≤ k → k ≤ 255 → p ≤ s.rd (OBS.CAP_WPOS n) → s.rd (OBS.CAP_WPOS n) - p ≤ 16384 →
      s.rd (OBS.CAP_WPOS n) < 2 ^ 32 → (s.cap n).bad = [] →
      r.params.length = 8 → getLe r.params 0 1 = n → getLe r.params 1 1 = 2 → getLe r.params 2 2 = k → getLe r.params 4 4 = p →
      ∃ t, exec (.captureRead r) s = .next t ∧ KeepsPath s t ∧
        AnswersOk s t 0x61 r (le 4 p ++ le 2 (min k (s.rd (OBS.CAP_WPOS n) - p)) ++ [0, 0] ++
          (List.range (min k (s.rd (OBS.CAP_WPOS n) - p))).flatMap fun i => le 16 (spGet 0 (s.cap n).words ((p + i) % 16384))))

/-- R305 for requests of one entry. -/
def Obligations.StagingAndLiveWrites : Prop :=
  ∀ (r : Request) (s : State) (a v : Nat), Served s r → r.params.length = 16 → getLe r.params 0 2 = 1 →
    getLe r.params 2 2 = 0 → getLe r.params 4 4 = a → getLe r.params 8 8 = v → instOf a ≠ 0xFF →
    (fieldCls a = none → ∃ t, exec (.stageWrite r) s = .next t ∧
      Answers s t 0x10 r .badAddress true (.err "BAD_ADDRESS" 0 0) ∧ t.doms = s.doms) ∧
    (fieldCls a = some .ro → ∃ t, exec (.stageWrite r) s = .next t ∧
      Answers s t 0x10 r .denied true (.err "ACCESS" 0 0) ∧ t.doms = s.doms) ∧
    (fieldCls a = some .k → s.cutField a = false → s.ownerUp a none = true → ∃ t, exec (.stageWrite r) s = .next t ∧
      Answers s t 0x10 r .runLocked true (.err (kName a) 0 0) ∧ t.doms = s.doms) ∧
    (s.stageBar a = none → (∀ d ∈ s.doms, d.staged.length < 2048) → ∃ t, exec (.stageWrite r) s = .next t ∧
      (t.dom (s.domOfAddr a)).stagedVal a = some v ∧
      (∀ d b, b ≠ a → (t.dom d).stagedVal b = (s.dom d).stagedVal b) ∧
      (∀ d, (t.dom d).commit = (s.dom d).commit ∧ (t.dom d).held = (s.dom d).held) ∧
      (∀ b, b ≠ OBS.IRQ_STAT → t.rd b = s.rd b) ∧ t.live = s.live ∧
      AnswersOk s t 0x10 r (le 2 1 ++ le 2 (t.dom (s.domOfAddr a)).staged.length)) ∧
    (fieldCls a ≠ some .l → fieldCls a ≠ none → ∃ t, exec (.liveWrite r) s = .next t ∧
      Answers s t 0x12 r .denied true (.err "ACCESS" 0 0) ∧ t.live = s.live) ∧
    (fieldCls a = some .l → 2 ^ fieldWidth a ≤ v → ∃ t, exec (.liveWrite r) s = .next t ∧
      Answers s t 0x12 r .conflict true (.err "RESERVED" 0 0) ∧ t.live = s.live) ∧
    (s.liveBar a v = none → ∃ t, exec (.liveWrite r) s = .next t ∧
      t.live = s.live ++ [⟨a, v, s.nextBoundary [dieOfAddr a]⟩] ∧ t.doms = s.doms ∧
      (∀ b, b ≠ OBS.IRQ_STAT → t.rd b = s.rd b) ∧ AnswersOk s t 0x12 r (le 8 (s.nextBoundary [dieOfAddr a])))

namespace Sys2Proof.Spec
open Sys2Proof.Machine

/-- The commands that write one live field, with the field's address. -/
def liveRows : List ((Via → Byte → BitVec 64 → Instr) × Nat) :=
  [(.seqGo, HK.SEQ_GO), (.ringMarkSet, HK.RING_MARK_SET), (.winClr, HK.WIN_CLR), (.biasRelease, BDAC.RELEASE),
    (.scClr, BDAC.SC_CLR), (.causeClr, RST.CAUSE_CLR), (.alarmClr, TEN.ALARM_CLR 1), (.capMarkSet, OBS.CAP_MARK_SET),
    (.histGo, OBS.HIST_GO), (.irqClr, OBS.IRQ_CLR), (.laneChgClr, OBS.LANE_CHG_CLR), (.faultClr, OBS.FAULT_CLR)] ++
  (List.range 8).map (fun n => ((fun v g x => .ltxSquelchWrite v g (BitVec.ofNat 8 n) x), LTX.SQUELCH n)) ++
  (List.range 16).map (fun k => ((fun v g x => .htxSquelchWrite v g (BitVec.ofNat 8 k) x), HTX.SQUELCH k)) ++
  (List.finRange 24).map (fun c => ((fun v g x => .biasCodeWrite v g c x), BDAC.CODE c.val)) ++
  (List.finRange 24).map (fun c => ((fun v g x => .loopTargetWrite v g c x), BDAC.LOOP_TARGET c.val)) ++
  (List.finRange 2).map (fun p => ((fun v g x => .resyncGo v g p x), TEN.RESYNC_GO p.val))

end Sys2Proof.Spec

/-- Live writes of single fields: acceptance and the refusals of R106, R107, R195, R355, R357 and R483. -/
def Obligations.FieldLiveWritesAreQueued : Prop :=
  (∀ x ∈ liveRows, ∀ (via : Via) (tag : Byte) (v : BitVec 64) (s : State), Served s ⟨via, tag, 0, []⟩ →
    s.liveBar x.2 v.toNat = none → ∃ t, exec (x.1 via tag v) s = .next t ∧
      t.live = s.live ++ [⟨x.2, v.toNat, s.nextBoundary [dieOfAddr x.2]⟩] ∧
      (∀ b, b ≠ OBS.IRQ_STAT → t.rd b = s.rd b) ∧
      (t.trans via).replies = (s.trans via).replies ++
        [⟨s.refFor 0x12 ⟨via, tag, 0, []⟩, .ok, s.tickno % 65536, .data (le 8 (s.nextBoundary [dieOfAddr x.2])), true⟩]) ∧
  ∀ (via : Via) (tag : Byte) (s : State), Served s ⟨via, tag, 0, []⟩ →
    (∀ n < 8, s.sys.bridgeLost = false → s.sys.txDis = true →
      ∃ t, exec (.ltxSquelchWrite via tag (BitVec.ofNat 8 n) 0) s = .next t ∧ t.live = s.live ∧
        Answers s t 0x12 ⟨via, tag, 0, []⟩ .precondition true (.err "TX_DIS" 0 0)) ∧
    (∀ n < 8, s.sys.bridgeLost = false → s.sys.txDis = false → s.sys.thermShut = true →
      ∃ t, exec (.ltxSquelchWrite via tag (BitVec.ofNat 8 n) 0) s = .next t ∧ t.live = s.live ∧
        Answers s t 0x12 ⟨via, tag, 0, []⟩ .precondition true (.err "THERMAL" 0 0)) ∧
    (∀ k < 16, s.sys.bridgeLost = false → s.sys.thermShut = true →
      ∃ t, exec (.htxSquelchWrite via tag (BitVec.ofNat 8 k) 0) s = .next t ∧ t.live = s.live ∧
        Answers s t 0x12 ⟨via, tag, 0, []⟩ .precondition true (.err "THERMAL" 0 0)) ∧
    (∀ v : BitVec 64, v ≠ 0 → v.toNat < 2 ^ 24 → s.sys.txDis = true →
      ∃ t, exec (.biasRelease via tag v) s = .next t ∧ t.live = s.live ∧
        Answers s t 0x12 ⟨via, tag, 0, []⟩ .precondition true (.err "TX_DIS" 0 0)) ∧
    (∀ (c : Fin 24) (v : BitVec 64), v.toNat < 2 ^ fieldWidth (BDAC.CODE c.val) →
      bits (s.rd (BDAC.LOOP_CFG c.val)) 31 31 = 1 →
      ∃ t, exec (.biasCodeWrite via tag c v) s = .next t ∧ t.live = s.live ∧
        Answers s t 0x12 ⟨via, tag, 0, []⟩ .precondition true (.err "LOOP_OWNED" 0 0)) ∧
    (s.supplyBad = true → ∃ t, exec (.faultClr via tag 16) s = .next t ∧ t.live = s.live ∧
        Answers s t 0x12 ⟨via, tag, 0, []⟩ .precondition true (.err "SUPPLY" 0 0))

/-- COMMIT and DISCARD of domain 0. -/
def Obligations.CommitFreezesAndDiscardClears : Prop :=
  (∀ (r : Request) (s : State) (target : Nat), Served s r → r.params.length = 12 → getLe r.params 0 8 = target →
    0 < target → target < 2 ^ 48 → getLe r.params 8 4 = 0 →
    let m := s.dom 0
    let h := s.hold (s.refFor 0x18 r)
    (m.commit.isSome = true → ∃ t, exec (.commit r) s = .next t ∧ t.doms = s.doms ∧
      Answers s t 0x18 r .busy true (.err "COMMIT_PEND" 0xFFFFFFFF 0)) ∧
    (m.commit = none → m.staged = [] → m.held = [] → m.bundle = none → ∃ t, exec (.commit r) s = .next t ∧ t.doms = s.doms ∧
      Answers s t 0x18 r .precondition true (.err "EMPTY" 0xFFFFFFFF 0)) ∧
    (m.commit = none → m.staged ≠ [] →
      (∀ x ∈ m.staged, fieldCls x.1 = some .k → h.ownerUp x.1 (some target) = false) → s.sys.bridgeLost = false →
      (∀ nm a, ({ h.cand m with target := some target }).fail = some (nm, a) → ∃ t, exec (.commit r) s = .next t ∧ t.doms = s.doms ∧
        Answers s t 0x18 r .conflict true (.err nm a 0)) ∧
      (({ h.cand m with target := some target }).fail = none → h.notResident 0 m = none → s.leadOk target = true → ∃ t, exec (.commit r) s = .next t ∧
        (t.dom 0).commit = some ⟨target, false, m.staged, m.held, m.bundle, s.refFor 0x18 r⟩ ∧
        (t.dom 0).staged = [] ∧ (t.dom 0).held = [] ∧ (t.dom 0).bundle = none ∧ t.dom 1 = s.dom 1 ∧
        AnswersAccepted s t 0x18 r (le 8 target ++ le 8 ((target + 2 ^ 48 - 1) % 2 ^ 48))))) ∧
  (∀ (r : Request) (s : State), Served s r → r.params = [0, 0, 0, 0] → ∃ t b, exec (.discard r) s = .next t ∧
    (t.dom 0).staged = [] ∧ (t.dom 0).held = [] ∧ (t.dom 0).bundle = none ∧
    (∀ l ∈ t.loads, s.domOfDie (dieOfLoad l.kind l.inst) ≠ 0) ∧
    (∀ c, (s.dom 0).commit = some c → (t.dom 0).commit = if c.armed then some c else none) ∧
    ((s.dom 0).commit = none → (t.dom 0).commit = none) ∧
    (t.trans r.via).replies.getLast? = some ⟨s.refFor 0x19 r, .ok, s.tickno % 65536, .data [b], true⟩)

/-- Acceptance of the lane, unit and calibration requests. -/
def Obligations.LaneAndUnitRequestsQueue : Prop :=
  (∀ (up : Bool) (r : Request) (s : State), Served s r → r.params.length = 12 → getLe r.params 1 1 = 0 →
    let line := getLe r.params 0 1
    let host := getLe r.params 2 2
    let target := getLe r.params 4 8
    let op := if up then 0x20 else 0x21
    let c := if up then Instr.laneUp r else Instr.laneDown r
    0 < target → target < 2 ^ 48 → s.split = false →
    (line = 0 → host = 0 → ∃ t, exec c s = .next t ∧ t.lanes = s.lanes ∧
      Answers s t op r .precondition true (.err "EMPTY" 0xFFFFFFFF 0)) ∧
    (line ≠ 0 ∨ host ≠ 0 →
      ((∃ q ∈ s.lanes, q.line &&& line ≠ 0 ∨ q.host &&& host ≠ 0) → ∃ t, exec c s = .next t ∧ t.lanes = s.lanes ∧
        Answers s t op r .busy true (.err "LANE_PENDING" 0xFFFFFFFF 0)) ∧
      ((∀ q ∈ s.lanes, q.line &&& line = 0 ∧ q.host &&& host = 0) → s.leadOk target = true →
        (up = true → s.rd DEV.REF_STATE ≠ 0 ∧ s.sys.refcal = none ∧ s.sys.thermShut = false ∧ s.noJoiner = false ∧
          s.laneConflict line host target = none) →
        ∃ t, exec c s = .next t ∧ t.lanes = s.lanes ++ [⟨up, line, host, target, some (s.refFor op r)⟩] ∧
          AnswersAccepted s t op r (le 8 target) ∧ ∀ a, a ≠ OBS.IRQ_STAT → t.rd a = s.rd a))) ∧
  (∀ (r : Request) (s : State) (n i : Nat), Served s r → r.params.length = 4 → getLe r.params 1 1 = n → n < 8 →
    getLe r.params 2 1 = i → getLe r.params 3 1 = 0 →
    (getLe r.params 0 1 = 4 → i < 4 → s.unit = none → ∃ t, exec (.retireUnit r) s = .next t ∧ t.unit = none ∧
      Answers s t 0x7C r .precondition true (.err "NO_SPARE_DAC" i 0)) ∧
    (getLe r.params 0 1 = 0 → i < 66 → s.unit = none → s.sliceServes n i = false → ∃ t, exec (.retireUnit r) s = .next t ∧
      t.unit = some ⟨s.unitTarget % 2 ^ 48, false, [⟨.slice, n, i, none, none, some (s.refFor 0x7C r)⟩]⟩ ∧
      AnswersAccepted s t 0x7C r (le 8 (s.unitTarget % 2 ^ 48)))) ∧
  (∀ (r : Request) (s : State) (n : Nat), Served s r → n < 8 → r.params = [0, byteOf n, 0, 0] →
    (s.findOp 0x30 n).isNone = true →
    (s.rd (LRX.STATE n) = 0 → ∃ t, exec (.calibrate r) s = .next t ∧ t.bit DEV.RXCAL_VALID_L400 n = false ∧
      t.bit DEV.RXCAL_VALID_L200 n = false ∧ AnswersOk s t 0x30 r [0, 2, 0, 0]) ∧
    (s.rd (LRX.STATE n) = 3 → ∃ t, exec (.calibrate r) s = .next t ∧ (t.rxL n).bgCal = some s.tickno ∧
      (t.findOp 0x30 n).isSome = true ∧ AnswersAccepted s t 0x30 r []) ∧
    (s.rd (LRX.STATE n) ≠ 0 → s.rd (LRX.STATE n) ≠ 3 → ∃ t, exec (.calibrate r) s = .next t ∧ t.rx = s.rx ∧
      Answers s t 0x30 r .busy true (.err "LANE_STATE" 0xFFFFFFFF 0))) ∧
  (∀ (r : Request) (s : State) (i step : Nat), Served s r → r.params.length = 8 → getLe r.params 0 1 = i → i < 32 →
    getLe r.params 1 1 = step → getLe r.params 2 2 = 0 → (s.findOp 0x31 0).isNone = true →
    (step < 2 → ∃ t, exec (.syscalPoint r) s = .next t ∧
      t.sys.hk.cal = some ⟨step, i, getLe r.params 4 4, 0, 0, 0⟩ ∧ AnswersAccepted s t 0x31 r [] ∧
      (t.findOp 0x31 0).isSome = true) ∧
    (step = 3 → ∃ t b, exec (.syscalPoint r) s = .next t ∧ t.sys.hk.zero = none ∧ t.sys.hk.full = none ∧
      AnswersDone s t 0x31 r b))

/-- Acceptance of the long-running requests. -/
def Obligations.LongRequestsStart : Prop :=
  ∀ (r : Request) (s : State), Served s r →
    (∀ us mask, r.params.length = 8 → getLe r.params 0 4 = us → getLe r.params 4 2 = mask → mask < 32 →
      getLe r.params 6 1 ≤ 1 → getLe r.params 7 1 = 0 →
      (us < 50 → ∃ t, exec (.sleep r) s = .next t ∧ t.sys.power = s.sys.power ∧
        Answers s t 0x40 r .precondition true (.err "LATENCY" 0xFFFFFFFF 0)) ∧
      (50 ≤ us → us < 1500000 → mask = 0 → ∃ t, exec (.sleep r) s = .next t ∧ t.sys.power = s.sys.power ∧
        Answers s t 0x40 r .precondition true (.err "NO_WAKE" 0xFFFFFFFF 0)) ∧
      (50 ≤ us → mask &&& 0x18 ≠ 0 → s.sys.power.sleep = none →
        let state := if 1500000 ≤ us then 3 else if 30000 ≤ us then 2 else 1
        s.entryRefuser state = none → ∃ t q, exec (.sleep r) s = .next t ∧ t.sys.power.sleep = some q ∧ q.state = state ∧
          q.mask = (if state = 3 then mask &&& 0x18 else mask) ∧ t.rd PWR.STATE = s.rd PWR.STATE ∧
          (t.trans r.via).replies = (s.trans r.via).replies ++
            [⟨s.refFor 0x40 r, .accepted, s.tickno % 65536, .data [byteOf state], false⟩,
              ⟨s.refFor 0x40 r, .ok, s.tickno % 65536, .data [], true⟩])) ∧
    (r.params = [] → s.rd PWR.STATE = 0 → s.sys.power.wake = 0 → s.sys.power.entry = 0 → ∃ t, exec (.wake r) s = .next t ∧
      t.sys.power = s.sys.power ∧ AnswersOk s t 0x41 r [0, 0]) ∧
    (∀ target, r.params.length = 12 → getLe r.params 0 1 ≤ 1 → getLe r.params 1 3 = 0 → getLe r.params 4 8 = target →
      0 < target → target < 2 ^ 48 → s.sys.power.shutdown = none → s.leadOk target = true →
      ∃ t, exec (.shutdown r) s = .next t ∧ t.lanes = s.lanes ++ [⟨false, 0xFF, 0xFFFF, target, none⟩] ∧
        t.sys.power.shutdown = some (target, decide (getLe r.params 0 1 = 1), s.refFor 0x78 r) ∧
        AnswersAccepted s t 0x78 r [] ∧ t.opRuns 0x78 = true) ∧
    (∀ inst n, getLe r.params 0 1 = 9 → getLe r.params 1 1 = inst → inst < 8 → getLe r.params 2 1 = 0 →
      getLe r.params 3 1 = 0 → getLe r.params 4 2 = 0 → getLe r.params 6 2 = n → 1 ≤ n → n ≤ 2044 →
      r.params.length = 8 + 2 * n → s.loads = [] → ∃ t, exec (.tableLoad r) s = .next t ∧
        t.loads = [⟨9, inst, 1, halves r.params 8 n, .between, 0, none⟩] ∧ AnswersOk s t 0x50 r (le 2 n)) ∧
    (getLe r.params 0 1 = 3 → getLe r.params 1 1 = 0 → getLe r.params 2 1 = 0 → getLe r.params 3 1 = 0 →
      getLe r.params 4 4 = 0 → 8 ≤ r.params.length → s.opRuns 0x52 = false → ∃ t, exec (.recipeLoad r) s = .next t ∧
        t.sys.images.recipe = some ⟨3, 0, 1, r.params.drop 8, none⟩ ∧ AnswersOk s t 0x52 r []) ∧
    (getLe r.params 0 1 = 1 → getLe r.params 1 1 = 0 → getLe r.params 2 1 = 0 → getLe r.params 3 1 = 1 →
      getLe r.params 4 4 = 0 → r.params.length = 8 → s.opRuns 0x52 = false → s.noFlash = false →
      ∃ t, exec (.recipeLoad r) s = .next t ∧ t.sys.images.recipe = some ⟨1, 0, 1, [], some (s.refFor 0x52 r)⟩ ∧
        AnswersAccepted s t 0x52 r [] ∧ t.opRuns 0x52 = true) ∧
    (∀ n point trig pre post tick, r.params.length = 20 → getLe r.params 0 1 = n → n < 8 → getLe r.params 1 1 = point →
      point ≤ 5 → getLe r.params 2 1 = trig → 1 ≤ trig → trig ≤ 4 → getLe r.params 3 1 = 0 → getLe r.params 4 4 = pre →
      getLe r.params 8 4 = post → getLe r.params 12 8 = tick → tick < 2 ^ 48 → 0 < post → pre + post ≤ 16384 →
      s.rd (LRX.STATE n) ≠ 0 → s.rd (OBS.CAP_STATE n) = 0 →
      ∃ t, exec (.captureArm r) s = .next t ∧ t.rd (OBS.CAP_STATE n) = 1 ∧ t.rd (OBS.CAP_WPOS n) = 0 ∧
        t.rd (OBS.CAP_FLAGS n) = 0 ∧ (t.cap n).point = point ∧ (t.cap n).trigger = trig ∧ (t.cap n).pre = pre ∧
        (t.cap n).post = post ∧ (t.cap n).hit = none ∧ (t.cap n).words = [] ∧ AnswersAccepted s t 0x60 r [] ∧
        t.opRuns 0x60 = true) ∧
    (∀ ty, 12 ≤ r.params.length → getLe r.params 0 1 = ty → ty ≤ 2 → getLe r.params 1 1 = 0 → getLe r.params 2 2 = 0 →
      getLe r.params 4 4 = 0 → getLe r.params 8 1 = 1 → getLe r.params 9 3 = 0 → r.params.length ≤ 4096 → s.noFlash = false →
      s.opRuns 0x70 = false → s.opRuns 0x71 = false → s.sys.images.write = none → s.newest ty = none →
      ∃ t, exec (.imageWrite r) s = .next t ∧ AnswersAccepted s t 0x70 r [] ∧ t.opRuns 0x70 = true ∧
        t.sys.images.flash = s.sys.images.flash ∧
        t.sys.images.write = some ⟨ty, 0, 1, r.params.length - 12, some ⟨s.refFor 0x70 r, true, false, 0, r.params.drop 12⟩⟩) ∧
    (r.params = [0, 1, 0, 0] → ∃ t, exec (.imageActivate r) s = .next t ∧ t.bit RST.FLAGS 6 = true ∧
      AnswersDone s t 0x71 r (le 4 (s.rd DEV.FW_SEQ) ++ [0, 0, 0, 0])) ∧
    (r.params = [0, 0, 0, 0] → (∀ d ∈ s.doms, d.commit = none) → s.longOps = [] → s.noFlash = false →
      (∀ c q, s.newest 0 = some (c, q) → q ≤ s.rd DEV.FW_SEQ) → ∃ t, exec (.imageActivate r) s = .next t ∧
      t.sys.images.act = s.sys.images.act ∧ Answers s t 0x71 r .precondition true (.err "NO_NEWER" 0xFFFFFFFF 0))

namespace Sys2Proof.Spec

open Sys2Proof.Machine

/-- Lane k of a vector register as its present name reads it, lane k of an accumulator as the MAC group and as any other
reader sees it. -/
def vLane (j : Joiner) (r : BitVec 6) (k : Nat) : Half := (j.rdV r).getD k 0
def fLane (j : Joiner) (a : BitVec 2) (k : Nat) : Acc := (j.rdAccF a).getD k 0
def aLane (j : Joiner) (a : BitVec 2) (k : Nat) : Acc := (j.rdAccV a).getD k 0

/-- Thirty-two lanes given by a function of the lane number. -/
def vec {α : Type} (f : Nat → α) : List α := (List.range 32).map f

/-- Clamp to a signed range of w bits. -/
def clip (w : Nat) (x : Int) : Int := max (-(2 : Int) ^ (w - 1)) (min x ((2 : Int) ^ (w - 1) - 1))

/-- rnd(x, s) of R247. -/
def round (x : Int) (s : Nat) : Int := if s = 0 then x else (x + 2 ^ (s - 1)) / 2 ^ s

/-- Does an enabled lane clamp? -/
def overflows (w : Nat) (mask : Word) (f : Nat → Int) : Bool :=
  (List.range 32).any fun k => mask.getLsbD k && decide (clip w (f k) ≠ f k)

/-- The lane mask of a PRED code: the predicate, or inside a ROT block the gate of a stage for codes 4 to 7 (R247, R259). -/
def gate (j : Joiner) (pred : BitVec 3) : Word :=
  if j.inRot = true ∧ 4 ≤ pred.toNat then (if j.stgMask.getLsbD (pred.toNat - 4) then 0xFFFFFFFF else 0)
  else j.rdP pred

/-- All lanes, or none while a stage gates the syllable off. -/
def allLanes (j : Joiner) (pred : BitVec 3) : Word :=
  if j.inRot = true ∧ 4 ≤ pred.toNat ∧ j.stgMask.getLsbD (pred.toNat - 4) = false then 0 else 0xFFFFFFFF

/-- Nothing but Joiner d and its performance counters has changed, the output pins apart. -/
def OnlyJoiner (s t : State) (d : Die) : Prop :=
  { t with regs := s.regs, joiners := s.joiners, sys := { t.sys with pins := s.sys.pins } } = s ∧
  (∀ e, e ≠ d.val → t.jn e = s.jn e) ∧ ∀ a, (∀ k < 8, a ≠ JNR.PC_VAL d.val k) → t.rd a = s.rd a

/-- A bundle of Joiner d issues, program memory holds two legal words for it, and its X syllable has not been given yet. -/
def XOpen (s : State) (d : Die) : Prop :=
  (s.jn d.val).issuing = true ∧ (s.jn d.val).bundleOk = true ∧ (s.jn d.val).xDone = false

/-- The command completes: it issues the X syllable of the bundle, with this destination, longest latency and results, each
result with its latency (a count is made when the bundle retires); nothing else changes until the bundle's Y syllable
completes it. -/
def IssuesX (s : State) (c : Instr) (d : Die) (dest lat : Nat) (effs : List (Nat × Eff)) : Prop :=
  ∃ t, exec c s = .next t ∧
    t.jn d.val = { s.jn d.val with
      xDone := true, xDest := some dest, xLat := lat, xFlights := effs.map fun e => ⟨(s.jn d.val).cycle, (s.jn d.val).cycle + e.1, 0, e.2⟩ } ∧
    OnlyJoiner s t d ∧ t.regs = s.regs

/-- A saturating result on 16-bit lanes: lane k gets f k clamped; SATF[4] where an enabled lane clamps; one instruction
counted at retirement. -/
def IssuesSat (s : State) (c : Instr) (d : Die) (pred : BitVec 3) (vd : BitVec 6) (lat : Nat) (f : Nat → Int) : Prop :=
  IssuesX s c d (destV vd.toNat) lat
    [(lat, .vec ((s.jv d.val).phys vd.toNat) (gate (s.jv d.val) pred) (vec fun k => BitVec.ofInt 16 (clip 16 (f k)))),
      (lat, .sat (if overflows 16 (gate (s.jv d.val) pred) f then 0x10 else 0)), (0, .count 2)]

/-- A result on 16-bit lanes that cannot saturate. -/
def IssuesVec (s : State) (c : Instr) (d : Die) (mask : Word) (vd : BitVec 6) (lat : Nat) (f : Nat → Half) : Prop :=
  IssuesX s c d (destV vd.toNat) lat
    [(lat, .vec ((s.jv d.val).phys vd.toNat) mask (vec f)), (0, .count 2)]

/-- A MAC-group result: lane k of the accumulator gets f k clamped to 40 bits, seen by the group after one cycle and by
others after two; its SATF bit where an enabled lane clamps; one instruction and one MAC counted. -/
def IssuesMac (s : State) (c : Instr) (d : Die) (pred : BitVec 3) (acc : BitVec 2) (f : Nat → Int) : Prop :=
  let v : List Acc := vec fun k => BitVec.ofInt 40 (clip 40 (f k))
  let mask := gate (s.jv d.val) pred
  IssuesX s c d (destAcc acc.toNat) 2
    [(1, .accFwd acc.toNat mask v), (2, .acc acc.toNat mask v),
      (2, .sat (if overflows 40 mask f then BitVec.ofNat 32 (2 ^ acc.toNat) else 0)), (0, .count 2), (0, .count 3)]

/-- The number of bits below the sign bit, from the top, that equal it (R249). -/
def signBits {w : Nat} (x : BitVec w) : Nat :=
  ((List.range w).filter fun n => (List.range (n + 1)).all fun i => x.getLsbD (w - 1 - i) == x.msb).length - 1

/-- The least value over the enabled lanes, or a default. -/
def leastOf (mask : Word) (none : Nat) (f : Nat → Nat) : Nat :=
  match ((List.range 32).filter fun k => mask.getLsbD k).map f with
  | [] => none
  | x :: xs => xs.foldl min x

end Sys2Proof.Spec

/-! ### Vector syllables -/

/-- The arithmetic of the vector ALU (R247, Table 8-9). -/
def Obligations.VectorArithmeticIssues : Prop :=
  ∀ (s : State) (d : Die) (pred : BitVec 3) (vd va vb : BitVec 6), XOpen s d →
    let j := s.jv d.val
    let g := gate j pred
    let a := fun k => (vLane j va k).toInt
    let b := fun k => (vLane j vb k).toInt
    IssuesSat s (.vadd d pred vd va vb) d pred vd 1 (fun k => a k + b k) ∧
    IssuesSat s (.vsub d pred vd va vb) d pred vd 1 (fun k => a k - b k) ∧
    IssuesVec s (.vaddw d pred vd va vb) d g vd 1 (fun k => BitVec.ofInt 16 (a k + b k)) ∧
    IssuesVec s (.vsubw d pred vd va vb) d g vd 1 (fun k => BitVec.ofInt 16 (a k - b k)) ∧
    (∀ md, IssuesSat s (.vmul d pred vd va vb md) d pred vd 2 (fun k => round (a k * b k) md.toNat)) ∧
    IssuesVec s (.vmin d pred vd va vb) d g vd 1 (fun k => BitVec.ofInt 16 (min (a k) (b k))) ∧
    IssuesVec s (.vmax d pred vd va vb) d g vd 1 (fun k => BitVec.ofInt 16 (max (a k) (b k))) ∧
    IssuesSat s (.vabs d pred vd va) d pred vd 1 (fun k => ((a k).natAbs : Int)) ∧
    (∀ md : BitVec 5, md.toNat < 16 → IssuesSat s (.vshl d pred vd va md) d pred vd 1 (fun k => a k * 2 ^ md.toNat)) ∧
    IssuesSat s (.vshlv d pred vd va vb) d pred vd 1 (fun k => a k * 2 ^ (max 0 (min (b k) 16)).toNat) ∧
    IssuesVec s (.vsel d pred vd va vb) d (allLanes j pred) vd 1 (fun k => if g.getLsbD k then vLane j va k else vLane j vb k) ∧
    IssuesVec s (.vmov d pred vd va) d g vd 1 (vLane j va) ∧
    (∀ imm, IssuesVec s (.vldi d pred vd imm) d g vd 1 fun _ => imm)

/-- Bitwise operations, right shifts and compares (Table 8-9). -/
def Obligations.VectorBitsAndComparesIssue : Prop :=
  ∀ (s : State) (d : Die) (pred : BitVec 3) (vd va vb : BitVec 6),
    let j := s.jv d.val
    let g := gate j pred
    (XOpen s d →
      IssuesVec s (.vand d pred vd va vb) d g vd 1 (fun k => vLane j va k &&& vLane j vb k) ∧
      IssuesVec s (.vor d pred vd va vb) d g vd 1 (fun k => vLane j va k ||| vLane j vb k) ∧
      IssuesVec s (.vxor d pred vd va vb) d g vd 1 (fun k => vLane j va k ^^^ vLane j vb k) ∧
      (∀ md : BitVec 5, md.toNat < 16 →
        IssuesVec s (.vasr d pred vd va md) d g vd 1 (fun k => BitVec.ofInt 16 ((vLane j va k).toInt / 2 ^ md.toNat)) ∧
        IssuesVec s (.vlsr d pred vd va md) d g vd 1 (fun k => BitVec.ofNat 16 ((vLane j va k).toNat / 2 ^ md.toNat))) ∧
      IssuesVec s (.vasrv d pred vd va vb) d g vd 1
        (fun k => BitVec.ofInt 16 ((vLane j va k).toInt / 2 ^ (max 0 (min (vLane j vb k).toInt 15)).toNat)) ∧
      ∀ pd : BitVec 3, pd ≠ 0 →
        let cmp := fun (c : Instr) (p : Nat → Bool) => ∃ w : Word,
          (∀ k < 32, w.getLsbD k = (g.getLsbD k && p k)) ∧
          IssuesX s c d (destP pd.toNat) 1
            ((if j.inRot = true ∧ 4 ≤ pred.toNat ∧ j.stgMask.getLsbD (pred.toNat - 4) = false then []
              else [(1, .pred pd.toNat w)]) ++ [(0, .count 2)])
        cmp (.vcmplt d pred pd va vb) (fun k => decide ((vLane j va k).toInt < (vLane j vb k).toInt)) ∧
        cmp (.vcmple d pred pd va vb) (fun k => decide ((vLane j va k).toInt ≤ (vLane j vb k).toInt)) ∧
        cmp (.vcmpeq d pred pd va vb) (fun k => decide (vLane j va k = vLane j vb k))) ∧
    ((s.jn d.val).issuing = false ∨ (s.jn d.val).xDone = true → ∃ t, exec (.vadd d pred vd va vb) s = .next t ∧ t.joiners = s.joiners ∧ OnlyJoiner s t d ∧ t.regs = s.regs) ∧
    ∃ t, exec (.nop d false) s = .next t ∧ t.joiners = s.joiners ∧ OnlyJoiner s t d ∧ t.regs = s.regs

/-- MAC group, extraction and normalisation (R248, R249). -/
def Obligations.MacGroupAndNormalisationIssue : Prop :=
  ∀ (s : State) (d : Die) (pred : BitVec 3) (acc : BitVec 2) (vd va vb : BitVec 6) (md : BitVec 5), XOpen s d →
    let j := s.jv d.val
    let g := gate j pred
    let a := fun k => (vLane j va k).toInt
    let b := fun k => (vLane j vb k).toInt
    let f := fun k => (fLane j acc k).toInt
    IssuesMac s (.vmac d pred acc va vb) d pred acc (fun k => f k + a k * b k) ∧
    IssuesMac s (.vmsu d pred acc va vb) d pred acc (fun k => f k - a k * b k) ∧
    IssuesMac s (.vmpy d pred acc va vb) d pred acc (fun k => a k * b k) ∧
    IssuesMac s (.vmacb d pred acc va vb md) d pred acc (fun k => f k + a k * b md.toNat) ∧
    IssuesMac s (.vclra d pred acc) d pred acc (fun _ => 0) ∧
    (let sum := ((List.range 32).map fun k => if g.getLsbD k then (aLane j acc k).toInt else 0).sum
     let v : List Acc := vec fun k => if k = 0 then BitVec.ofInt 40 (clip 40 sum) else 0
     let all := allLanes j pred
     IssuesX s (.vrsuma d pred acc) d (destAcc acc.toNat) 3
       [(3, .accFwd acc.toNat all v), (3, .acc acc.toNat all v),
         (3, .sat (if all ≠ 0 ∧ clip 40 sum ≠ sum then BitVec.ofNat 32 (2 ^ acc.toNat) else 0)), (0, .count 2)]) ∧
    IssuesSat s (.vext d pred vd acc md) d pred vd 2 (fun k => round (aLane j acc k).toInt md.toNat) ∧
    IssuesSat s (.vextv d pred vd acc vb) d pred vd 2 (fun k => round (aLane j acc k).toInt (max 0 (min (b k) 39)).toNat) ∧
    IssuesVec s (.vnorm d pred vd va) d g vd 2 (fun k => BitVec.ofNat 16 (signBits (vLane j va k))) ∧
    IssuesVec s (.vnorma d pred vd acc) d g vd 2 (fun k => BitVec.ofNat 16 (signBits (aLane j acc k))) ∧
    IssuesVec s (.vexp d pred vd va) d (allLanes j pred) vd 3
      (fun _ => BitVec.ofNat 16 (leastOf g 15 fun k => signBits (vLane j va k))) ∧
    IssuesVec s (.vexpa d pred vd acc) d (allLanes j pred) vd 3
      (fun _ => BitVec.ofNat 16 (24 - leastOf g 24 fun k => signBits (aLane j acc k)))

namespace Sys2Proof.Spec

open Sys2Proof.Machine

/-- The results an X syllable can give. -/
def isXResult : Eff → Bool
  | .vec _ _ _ | .accFwd _ _ _ | .acc _ _ _ | .sat _ | .pred _ _ | .count _ => true
  | _ => false

/-- A bundle of Joiner d issues, of two legal words, outside the delay slots of a taken branch; its X syllable (if any) names
none of these destinations; no result of an earlier bundle arrives when it has issued after this many stall cycles; and it
retires, with this longest latency of its Y syllable, within the slot. -/
structure YOpen (s : State) (d : Die) (dests : List Nat) (stall : Nat := 0) (lat : Nat := 2) : Prop where
  issuing : (s.jn d.val).issuing = true
  words : (s.jn d.val).bundleOk = true
  branch : (s.jn d.val).branch = none
  noFault : (s.jn d.val).badBranch = none
  dest : ∀ x, (s.jn d.val).xDest = some x → x ∉ dests
  quiet : ∀ f ∈ (s.jn d.val).flights, (s.jn d.val).cycle + 1 + stall < f.due
  xs : ∀ f ∈ (s.jn d.val).xFlights, isXResult f.eff = true ∧ f.issue = (s.jn d.val).cycle
  fits : (s.jn d.val).cycle + stall + max lat (s.jn d.val).xLat < (s.jn d.val).slotLen

/-- Nothing but Joiner d, its performance counters and the fields named has changed, the output pins apart. -/
def OnlyJoinerAnd (s t : State) (d : Die) (fs : List Nat) : Prop :=
  { t with regs := s.regs, joiners := s.joiners, sys := { t.sys with pins := s.sys.pins } } = s ∧
  (∀ e, e ≠ d.val → t.jn e = s.jn e) ∧ ∀ a, a ∉ fs → (∀ k < 8, a ≠ JNR.PC_VAL d.val k) → t.rd a = s.rd a

/-- A result issued and due in these slot cycles, of a bundle that retires in cycle ret: what acts on more than the registers
waits for the retirement (R236). -/
def inFlight (ret issue due : Nat) (e : Eff) : Flight := ⟨issue, if e.retires then ret else due, ret, e⟩

/-- The Y syllable completes the bundle: Joiner d is w, with its registers as they were; in flight are what was, and the
results of the X syllable and these of the Y syllable, each with its latency after the stall, until the bundle retires; the
next bundle reads registers of which `seen` holds. Of the fields only performance counters and those named change, and
nothing else of the machine. -/
def CompletesY (s : State) (c : Instr) (d : Die) (w : Joiner) (effs : List (Nat × Eff)) (stall : Nat := 0) (lat : Nat := 2)
    (fs : List Nat := []) (seen : Joiner → Prop := fun _ => True) : Prop :=
  let j := s.jn d.val
  let ret := j.cycle + stall + max lat j.xLat
  ∃ t, exec c s = .next t ∧
    t.jn d.val = { w with flights := (t.jn d.val).flights } ∧
    (∀ f, f ∈ (t.jn d.val).flights ↔ f ∈ j.flights ∨
      (∃ x ∈ j.xFlights, f = inFlight ret (x.issue + stall) (x.due + stall) x.eff) ∨
      ∃ e ∈ effs, f = inFlight ret (j.cycle + stall) (j.cycle + stall + e.1) e.2) ∧
    seen (t.jv d.val) ∧ OnlyJoinerAnd s t d fs

/-- The second operand of a scalar operation (Table 8-8). -/
def operand (j : Joiner) : Src → Word
  | .reg sb => j.rdS sb
  | .imm v => BitVec.ofInt 32 v.toInt

/-- The next bundle reads a scalar register as written and the others as before. -/
def readsS (j : Joiner) (r : BitVec 4) (x : Word) (u : Joiner) : Prop := u.rdS r = x ∧ ∀ q, q ≠ r → u.rdS q = j.rdS q
/-- The next bundle reads an address register as written and the others as before. -/
def readsA (j : Joiner) (r : BitVec 4) (x : Word) (u : Joiner) : Prop := u.rdA r = x ∧ ∀ q, q ≠ r → u.rdA q = j.rdA q

end Sys2Proof.Spec

/-! ### Scalar, address and transfer syllables -/

/-- Scalar and address arithmetic (R250, Table 8-10). -/
def Obligations.ScalarAndAddressComplete : Prop :=
  ∀ (s : State) (d : Die) (dst sa sb : BitVec 4) (b : Src),
    let j := s.jv d.val
    let next := (s.jn d.val).advance 0
    let x := j.rdS sa
    let y := operand j b
    let n := y.toNat % 32
    let one : Nat × Eff := (2, .count 2)
    (YOpen s d [destS dst.toNat] →
      let op := fun (c : Instr) (v : Word) => CompletesY s c d next [(1, .scalar dst.toNat v), one] 0 2 [] (readsS j dst v)
      op (.sadd d dst sa b) (x + y) ∧ op (.ssub d dst sa b) (x - y) ∧ op (.sand d dst sa b) (x &&& y) ∧
      op (.sor d dst sa b) (x ||| y) ∧ op (.sxor d dst sa b) (x ^^^ y) ∧
      op (.sshl d dst sa b) (BitVec.ofNat 32 (x.toNat * 2 ^ n)) ∧ op (.slsr d dst sa b) (BitVec.ofNat 32 (x.toNat / 2 ^ n)) ∧
      op (.sasr d dst sa b) (BitVec.ofInt 32 (x.toInt / 2 ^ n)) ∧
      op (.smin d dst sa b) (BitVec.ofInt 32 (min x.toInt y.toInt)) ∧
      op (.smax d dst sa b) (BitVec.ofInt 32 (max x.toInt y.toInt)) ∧
      op (.smul d dst sa b) (BitVec.ofNat 32 (x.toNat * y.toNat)) ∧
      op (.scmplt d dst sa b) (if x.toInt < y.toInt then 1 else 0) ∧ op (.scmpeq d dst sa b) (if x = y then 1 else 0) ∧
      (∀ imm : BitVec 22, op (.sli d dst imm) (BitVec.ofInt 32 imm.toInt)) ∧
      (∀ imm : BitVec 16, op (.shi d dst imm) (BitVec.ofNat 32 (imm.toNat * 65536 + (j.rdS dst).toNat % 65536))) ∧
      op (.aget d dst sa) (j.rdA sa)) ∧
    (YOpen s d [destA dst.toNat] →
      let op := fun (c : Instr) (v : Word) => CompletesY s c d next [(1, .addr dst.toNat v), one] 0 2 [] (readsA j dst v)
      op (.amov d dst sa b) (x + y) ∧ op (.aadd d dst b) (j.rdA dst + y)) ∧
    (dst.toNat < 8 → YOpen s d [destM dst.toNat] →
      CompletesY s (.mmov d dst sa b) d next [(1, .offset dst.toNat (x + y)), one] 0 2 [] fun u =>
        u.m.getD dst.toNat 0 = x + y ∧ ∀ q, q ≠ dst.toNat → u.m.getD q 0 = j.m.getD q 0) ∧
    (dst.toNat < 8 → YOpen s d [destC dst.toNat] →
      let base := BitVec.ofNat 20 (j.rdS sa).toNat
      let len := BitVec.ofNat 20 (j.rdS sb).toNat
      CompletesY s (.cbset d dst sa sb) d next [(1, .circ dst.toNat base len), one] 0 2 [] fun u =>
        u.cb.getD dst.toNat 0 = base ∧ u.cl.getD dst.toNat 0 = len ∧
        ∀ q, q ≠ dst.toNat → u.cb.getD q 0 = j.cb.getD q 0 ∧ u.cl.getD q 0 = j.cl.getD q 0)

/-- Transfers, special registers, counters (R254, Tables 8-2, 8-10). -/
def Obligations.TransfersAndSpecialsComplete : Prop :=
  ∀ (s : State) (d : Die) (sr sp : BitVec 4) (v : BitVec 6) (p : BitVec 3) (lane : BitVec 5),
    let i := s.jn d.val
    let j := s.jv d.val
    let next := i.advance 0
    let one : Nat × Eff := (2, .count 2)
    (YOpen s d [] → CompletesY s (.nop d true) d next []) ∧
    (YOpen s d [destS sr.toNat] →
      CompletesY s (.vget d sr v lane) d next [(2, .scalar sr.toNat (BitVec.ofInt 32 (vLane j v lane.toNat).toInt)), one] ∧
      CompletesY s (.pget d sr p) d next [(2, .scalar sr.toNat (if p = 0 then 0xFFFFFFFF else j.p.getD p.toNat 0)), one] ∧
      (∀ x, (sp.toNat < 8 ∨ s.isUser d.val = false) →
        (sp = 0 ∧ x = BitVec.ofNat 32 ((i.rep.map RepBlock.iter).getD 0) ∨ sp = 1 ∧ x = BitVec.ofNat 32 i.rotofs ∨ sp = 2 ∧ x = j.lr ∨
          sp = 3 ∧ x = j.satf ∨ sp = 4 ∧ x = BitVec.ofNat 32 i.cycle ∨ sp = 5 ∧ x = BitVec.ofNat 32 i.slotLen ∨
          sp = 6 ∧ x = i.stgMask ∨ sp = 8 ∧ x = j.epc ∨ sp = 9 ∧ x = i.icause) →
        CompletesY s (.mfs d sr sp) d next [(2, .scalar sr.toNat x), one]) ∧
      ∀ kk : BitVec 4, kk.toNat < 8 → CompletesY s (.rdpc d sr kk) d next
        [(2, .scalar sr.toNat (BitVec.ofNat 32
          (if s.isUser d.val = true ∧ s.bit (JNR.COUNTER_GRANT d.val) kk.toNat = false then 0
            else s.rd (JNR.PC_VAL d.val kk.toNat)))), one]) ∧
    (sr.toNat % 2 = 0 → YOpen s d [destS sr.toNat, destS (sr.toNat + 1)] →
      let free := fun k => s.isUser d.val = false ∨ s.bit (JNR.COUNTER_GRANT d.val) k = true
      (free 8 → let c := s.rd (JNR.PC_CYCLE d.val) + 64 * (i.slot.getD 0) + i.cycle
        CompletesY s (.rdpc d sr 8) d next
          [(2, .scalar sr.toNat (BitVec.ofNat 32 c)), (2, .scalar (sr.toNat + 1) (BitVec.ofNat 32 (c / 2 ^ 32))), one]) ∧
      ∀ i < 4, free (2 * i) → free (2 * i + 1) → CompletesY s (.rdpc d sr (BitVec.ofNat 4 (9 + i))) d next
        [(2, .scalar sr.toNat (BitVec.ofNat 32 (s.rd (JNR.PC_VAL d.val (2 * i))))),
          (2, .scalar (sr.toNat + 1) (BitVec.ofNat 32 (s.rd (JNR.PC_VAL d.val (2 * i + 1))))), one]) ∧
    (YOpen s d [destV v.toNat] →
      let lanes : List Half := vec fun _ => BitVec.ofNat 16 (j.rdS sr).toNat
      CompletesY s (.vsplat d v sr) d next [(1, .vec (j.phys v.toNat) 0xFFFFFFFF lanes), one] 0 2 [] fun u =>
        lanes32 0 (u.v.getD (j.phys v.toNat) []) = lanes) ∧
    (YOpen s d [destP p.toNat] → CompletesY s (.pset d sr p) d next [(1, .pred p.toNat (j.rdS sr)), one] 0 2 [] fun u =>
      u.rdP p = if p = 0 then 0xFFFFFFFF else j.rdS sr) ∧
    (YOpen s d [destX sp.toNat] →
      let op := fun (seen : Joiner → Prop) => CompletesY s (.mts d sp sr) d next [(1, .special sp.toNat (j.rdS sr)), one] 0 2 [] seen
      (sp = 2 → op fun u => u.lr = j.rdS sr) ∧ (sp = 3 → op fun u => (i.xFlights = [] → u.satf = j.rdS sr) ∧ u.satf ||| j.rdS sr = u.satf) ∧
      (sp = 8 → s.isUser d.val = false → op fun u => u.epc = j.rdS sr))

namespace Sys2Proof.Spec

open Sys2Proof.Machine

/-- Where a YM syllable accesses (R241, R242, R259): its address modes, its gate and its alignment are lawful, the access is
made, at this address, and the address register becomes this (its old value in the plain mode). -/
def At (j : Joiner) (mm : Mem) (size ea : Nat) (a : Word) : Prop :=
  (mm.g = 0 ∨ 4 ≤ mm.g.toNat) ∧ j.gateOn mm.g = true ∧ ea % size = 0 ∧
  (mm.amode = 0 ∧ ea = (j.rdA mm.a + BitVec.ofInt 32 (mm.imm.toInt * size)).toNat ∧ a = j.rdA mm.a ∨
    mm.amode = 1 ∧ ea = (j.rdA mm.a).toNat ∧ a = j.rdA mm.a + j.rdM mm.m ∨
    mm.amode = 2 ∧ ea = (j.rdA mm.a).toNat ∧
      (let cl := (j.cl.getD mm.m.toNat 0).toNat
       let cb := (j.cb.getD mm.m.toNat 0).toNat
       a = if cl = 0 then j.rdA mm.a + j.rdM mm.m
         else BitVec.ofInt 32 (cb + ((j.rdA mm.a).toNat - cb + (j.rdM mm.m).toInt) % cl)))

/-- The syllable is gated off by a stage of a ROT block (R259). -/
def Off (j : Joiner) (mm : Mem) : Prop := 4 ≤ mm.g.toNat ∧ mm.amode ≠ 3 ∧ j.gateOn mm.g = false

/-- The update of the address register of a syllable, for the next bundle; none in the plain mode. -/
def moves (mm : Mem) (a : Word) : List (Nat × Eff) := if mm.amode = 0 then [] else [(1, .addr mm.a.toNat a)]

/-- A byte of a Joiner's data memory. -/
def byteAt (j : Joiner) (a : Nat) : Nat := spGet 0 j.dm a

/-- The 16-bit item at an address, low byte first; zero where its 32-bit word, counted from the start of the access, fails. -/
def itemAt (j : Joiner) (a : Nat) (bad : Bool) : Half :=
  if bad then 0 else BitVec.ofNat 16 (byteAt j a + 256 * byteAt j (a + 1))

/-- No store is in flight. -/
def noStores (j : Joiner) : Prop := ∀ f ∈ j.flights, ∀ a n v w, f.eff ≠ .storeV a n v ∧ f.eff ≠ .storeS a n w

/-- A Joiner whose running slot remembers an uncorrectable word, if one was met. -/
def marked (j : Joiner) (bad : Bool) : Joiner :=
  match j.slot with
  | some k => if bad then { j with slots := modNth .reset j.slots k fun b => { b with dmErr := true } } else j
  | none => j

/-- How many of the first n bits are set. -/
def count (v : BitVec 16) (n : Nat) : Nat := ((List.range n).filter fun i => v.getLsbD i).length

end Sys2Proof.Spec

/-! ### Loads and stores -/

/-- Loads (R241 to R244, R204, R217). -/
def Obligations.LoadsComplete : Prop :=
  ∀ (s : State) (d : Die) (v : BitVec 6) (sr : BitVec 4) (mm : Mem) (ecc : Ecc) (ea : Nat) (a : Word),
    let i := s.jn d.val
    let j := s.jv d.val
    let one : Nat × Eff := (3, .count 2)
    let went := i.advance 0
    let seen := readsA j mm.a (if mm.amode = 0 then j.rdA mm.a else a)
    let dmFields := [JNR.DM_CORR d.val, JNR.DM_UNCORR d.val]
    (ea < 0x80000 → noStores i → YOpen s d [destV v.toNat] 0 3 →
      (At j mm 64 ea a → s.mayRead d.val ea 64 = true →
        CompletesY s (.vld d v mm ecc) d (marked went (decide (count ecc.bad 16 ≠ 0)))
          (moves mm a ++ [(3, .vec (j.phys v.toNat) 0xFFFFFFFF (vec fun k => itemAt j (ea + 2 * k) (ecc.bad.getLsbD (k / 2)))), one])
          0 3 dmFields seen ∧
        ∃ t, exec (.vld d v mm ecc) s = .next t ∧
          t.rd (JNR.DM_UNCORR d.val) = (s.rd (JNR.DM_UNCORR d.val) + count ecc.bad 16) % 2 ^ fieldWidth (JNR.DM_UNCORR d.val) ∧
          t.rd (JNR.DM_CORR d.val) =
            (s.rd (JNR.DM_CORR d.val) + count (ecc.fixed &&& ~~~ ecc.bad) 16) % 2 ^ fieldWidth (JNR.DM_CORR d.val)) ∧
      (At j mm 2 ea a → s.mayRead d.val ea 2 = true →
        CompletesY s (.vldb d v mm ecc) d (marked went (ecc.bad.getLsbD 0))
          (moves mm a ++ [(3, .vec (j.phys v.toNat) 0xFFFFFFFF (vec fun _ => itemAt j ea (ecc.bad.getLsbD 0))), one])
          0 3 dmFields seen)) ∧
    (ea < 0x80000 → noStores i → YOpen s d [destS sr.toNat] 0 3 → At j mm 4 ea a → s.mayRead d.val ea 4 = true →
      CompletesY s (.sld d sr mm ecc none) d (marked went (ecc.bad.getLsbD 0))
        (moves mm a ++ [(3, .scalar sr.toNat (if ecc.bad.getLsbD 0 then 0 else BitVec.ofNat 32
          (byteAt j ea + 2 ^ 8 * byteAt j (ea + 1) + 2 ^ 16 * byteAt j (ea + 2) + 2 ^ 24 * byteAt j (ea + 3)))), one])
        0 3 dmFields seen) ∧
    (∀ c b w, c < 24 → b < 2 → w < 512 → ea = 0x80000 + 0x4000 * c + 0x2000 * b + 16 * w → mm.amode ≠ 2 →
      At j mm 64 ea a → s.mayCapture d.val c = true →
      let bank := (s.fifo c).bank b
      let own := (if c < 8 then dieOfLine c else dieOfHost (c - 8)) = d.val
      let stall := if own then (if i.lastCap.map (· + 1) = some i.cycle then 1 else 0) else 36
      let full := bank.full = true ∧ (own ∨ s.sys.bridgeLost = false)
      let item := fun (k : Nat) => if full then (bank.words.getD (w + k / 8) (0, 0x4000)).1.extractLsb' (16 * (k % 8)) 16 else 0
      let side := fun (k : Nat) => if full then
          (match bank.words[w + k]? with
          | some x => if ecc.bad.getLsbD k then x.2 ||| 0x4000 else x.2
          | none => 0x4000) else 0x4000
      let after := ({ i with lastCap := if own then some (i.cycle + stall) else i.lastCap }).advance stall
      (YOpen s d [destV v.toNat] stall 3 →
        CompletesY s (.vld d v mm ecc) d after (moves mm a ++ [(3, .vec (j.phys v.toNat) 0xFFFFFFFF (vec item)), one]) stall 3
          [JNR.CAP_POISON d.val] seen) ∧
      (v.toNat % 2 = 0 → YOpen s d [destV v.toNat, destV (v.toNat + 1)] stall 3 →
        CompletesY s (.vldc d v mm ecc) d after
          (moves mm a ++ [(3, .vec (j.phys v.toNat) 0xFFFFFFFF (vec item)),
            (3, .vec (j.phys (v.toNat + 1)) 0xFFFFFFFF (vec fun k => if k < 4 then side k else 0)), one]) stall 3
          [JNR.CAP_POISON d.val] seen) ∧
      (bank.full = false → YOpen s d [destV v.toNat] stall 3 → ∃ t, exec (.vld d v mm ecc) s = .next t ∧
        t.rd (JNR.CAP_POISON d.val) = (s.rd (JNR.CAP_POISON d.val) + 4) % 2 ^ fieldWidth (JNR.CAP_POISON d.val))) ∧
    (∀ c b, c < 24 → b < 2 → YOpen s d [destS sr.toNat] 0 3 → At j mm 4 ea a → s.mayCapture d.val c = true →
      let k := (s.fifo c).bank b
      (ea = 0xE0000 + 0x20 * c + 0x10 * b → CompletesY s (.sld d sr mm ecc none) d went
        (moves mm a ++ [(3, .scalar sr.toNat (BitVec.ofNat 32 (k.full.toNat * 2 ^ 31 + k.trunc.toNat * 2 ^ 30 + k.point % 8 * 2 ^ 27 +
          k.words.length % 1024 * 2 ^ 17 + k.pkt % 256 * 2 ^ 9))), one]) 0 3 [] seen) ∧
      (ea = 0xE0000 + 0x20 * c + 0x10 * b + 4 → CompletesY s (.sld d sr mm ecc none) d went
        (moves mm a ++ [(3, .scalar sr.toNat (BitVec.ofNat 32 (k.tick % 2 ^ 20 * 2 ^ 12 + k.off % 2 ^ 12))), one]) 0 3 [] seen)) ∧
    (Off j mm →
      (YOpen s d [destV v.toNat] → CompletesY s (.vld d v mm ecc) d went [(2, .count 2)] ∧
        CompletesY s (.vldb d v mm ecc) d went [(2, .count 2)]) ∧
      (v.toNat % 2 = 0 → YOpen s d [destV v.toNat, destV (v.toNat + 1)] → CompletesY s (.vldc d v mm ecc) d went [(2, .count 2)]) ∧
      (YOpen s d [destS sr.toNat] → CompletesY s (.sld d sr mm ecc none) d went [(2, .count 2)]))

/-- Stores (R223, R236, R241). -/
def Obligations.StoresCompleteAndLand : Prop :=
  ∀ (s : State) (d : Die) (v : BitVec 6) (sr : BitVec 4) (mm : Mem) (ea : Nat) (a : Word),
    let i := s.jn d.val
    let j := s.jv d.val
    let went := i.advance 0
    let seen := readsA j mm.a (if mm.amode = 0 then j.rdA mm.a else a)
    (YOpen s d [] → ea < 0x80000 →
      (At j mm 64 ea a →
        (s.mayWrite d.val ea 64 = true →
          CompletesY s (.vst d v mm) d went (moves mm a ++ [(2, .storeV ea (i.cycle + 2) (vec (vLane j v))), (2, .count 2)]) 0 2 [] seen) ∧
        (s.mayWrite d.val ea 64 = false → ∃ t, exec (.vst d v mm) s = .next t ∧ (t.jn d.val).slot = none ∧
          ∀ b, byteAt (t.jn d.val) b = byteAt i b)) ∧
      (At j mm 4 ea a → s.mayWrite d.val ea 4 = true →
        CompletesY s (.sst d sr mm) d went (moves mm a ++ [(2, .storeS ea (i.cycle + 2) (j.rdS sr)), (2, .count 2)]) 0 2 [] seen)) ∧
    (YOpen s d [] → Off j mm → CompletesY s (.vst d v mm) d went [(2, .count 2)] ∧
      CompletesY s (.sst d sr mm) d went [(2, .count 2)]) ∧
    (∀ (val : List Half) (w : Word) (seen at_ : Nat), val.length = 32 → i.issuing = true → i.bundleOk = true → i.branch = none →
      i.badBranch = none → i.xDest = none → i.xFlights = [] →
      (i.flights = [⟨at_, i.cycle + 1, i.cycle + 1, .storeV ea seen val⟩] →
        (s.locked ea 64 = false → ∃ t, exec (.nop d true) s = .next t ∧
          (∀ k < 32, byteAt (t.jn d.val) (ea + 2 * k) + 256 * byteAt (t.jn d.val) (ea + 2 * k + 1) = (val.getD k 0).toNat) ∧
          (∀ b, (b < ea ∨ ea + 64 ≤ b) → byteAt (t.jn d.val) b = byteAt i b) ∧ OnlyJoiner s t d) ∧
        (s.locked ea 64 = true → s.isUser d.val = false → ∃ t, exec (.nop d true) s = .next t ∧
          (∀ b, byteAt (t.jn d.val) b = byteAt i b) ∧
          t.rd (JNR.DM_LOCK_CNT d.val) = (s.rd (JNR.DM_LOCK_CNT d.val) + 1) % 2 ^ fieldWidth (JNR.DM_LOCK_CNT d.val))) ∧
      (i.flights = [⟨at_, i.cycle + 1, i.cycle + 1, .storeS ea seen w⟩] → s.locked ea 4 = false → ∃ t, exec (.nop d true) s = .next t ∧
        byteAt (t.jn d.val) ea + 2 ^ 8 * byteAt (t.jn d.val) (ea + 1) + 2 ^ 16 * byteAt (t.jn d.val) (ea + 2) +
          2 ^ 24 * byteAt (t.jn d.val) (ea + 3) = w.toNat ∧
        (∀ b, (b < ea ∨ ea + 4 ≤ b) → byteAt (t.jn d.val) b = byteAt i b) ∧ OnlyJoiner s t d)) ∧
    ∀ (ecc : Ecc) (w : Word) (at_ due ret seen : Nat), YOpen s d [destS sr.toNat] 0 3 → At j mm 4 ea a → ea < 0x80000 →
      s.mayRead d.val ea 4 = true → ecc.bad = 0 → i.flights = [⟨at_, due, ret, .storeS ea seen w⟩] → i.cycle + 1 < due →
      ∃ t, exec (.sld d sr mm ecc none) s = .next t ∧
        inFlight (i.cycle + max 3 i.xLat) i.cycle (i.cycle + 3) (.scalar sr.toNat (if seen ≤ i.cycle then w else BitVec.ofNat 32
          (byteAt i ea + 2 ^ 8 * byteAt i (ea + 1) + 2 ^ 16 * byteAt i (ea + 2) + 2 ^ 24 * byteAt i (ea + 3)))) ∈ (t.jn d.val).flights

/-! ### Control -/

/-- Branches (R238, R251, R260). -/
def Obligations.BranchesHaveThreeDelaySlots : Prop :=
  ∀ (s : State) (d : Die) (sa : BitVec 4) (off : BitVec 16),
    let i := s.jn d.val
    let j := s.jv d.val
    let rel := (((i.pc : Int) + 8 * off.toInt) % 2 ^ 32).toNat
    let goes := fun (t : Nat) => { i with branch := some (4, t), delay := 4 }.advance 0
    let stays := { i with delay := 4 }.advance 0
    let reach := fun (t : Nat) => if s.isUser d.val then 0x30000 ≤ t ∧ t < 0x40000 else t < 0x40000
    let taken := fun (t : Nat) => [(2, Eff.count 2), (2, .count 7)] ++ (if reach t then [] else [(2, .badBranch t)])
    let not : List (Nat × Eff) := [(2, .count 2)]
    (YOpen s d [] → i.rep = none → i.delay = 0 →
      CompletesY s (.br d off) d (goes rel) (taken rel) ∧
      (j.rdS sa = 0 → CompletesY s (.bz d sa off) d (goes rel) (taken rel)) ∧
      (j.rdS sa ≠ 0 → CompletesY s (.bz d sa off) d stays not) ∧
      (j.rdS sa ≠ 0 → CompletesY s (.bnz d sa off) d (goes rel) (taken rel)) ∧
      (j.rdS sa = 0 → CompletesY s (.bnz d sa off) d stays not) ∧
      ((j.rdS sa).toInt < 0 → CompletesY s (.bneg d sa off) d (goes rel) (taken rel)) ∧
      (0 ≤ (j.rdS sa).toInt → CompletesY s (.bneg d sa off) d stays not) ∧
      CompletesY s (.ret d) d (goes j.lr.toNat) (taken j.lr.toNat) ∧
      (s.isUser d.val = false → CompletesY s (.reti d) d (goes j.epc.toNat) ((2, .reti) :: taken j.epc.toNat))) ∧
    (YOpen s d [destX 2] → i.rep = none → i.delay = 0 →
      let back := BitVec.ofNat 32 (i.pc + 32)
      CompletesY s (.call d off) d (goes rel) ((1, .special 2 back) :: taken rel) 0 2 [] fun u => u.lr = back) ∧
    (i.issuing = true → i.bundleOk = true → i.xDest = none → i.xFlights = [] → i.rep = none →
      (∀ n t, i.flights = [] → i.branch = some (n, t) → i.badBranch = none →
        (2 ≤ n → ∃ u, exec (.nop d true) s = .next u ∧ (u.jn d.val).branch = some (n - 1, t) ∧ (u.jn d.val).pc = i.pc + 8 ∧
          OnlyJoiner s u d) ∧
        (n = 1 → ∃ u, exec (.nop d true) s = .next u ∧
          (u.jn d.val).branch = none ∧ (u.jn d.val).pc = t ∧ (u.jn d.val).slot = i.slot ∧ OnlyJoiner s u d)) ∧
      (∀ n t bad at_, 2 ≤ n → i.branch = some (n, t) → i.flights = [⟨at_, i.cycle + 1, i.cycle + 1, .badBranch bad⟩] →
        ∃ u, exec (.nop d true) s = .next u ∧ (u.jn d.val).badBranch = some bad ∧ (u.jn d.val).slot = i.slot ∧ OnlyJoiner s u d) ∧
      (∀ t bad, i.flights = [] → i.branch = some (1, t) → i.badBranch = some bad → ∃ u, exec (.nop d true) s = .next u ∧
        (u.jn d.val).slot = none ∧ (s.isUser d.val = false → (u.jn d.val).fault = true) ∧
        (s.isUser d.val = true → u.rd (JNR.SANDBOX_CNT d.val) = (s.rd (JNR.SANDBOX_CNT d.val) + 1) % 2 ^ 32))) ∧
    (i.issuing = true → s.isUser d.val = false → (i.rep.isSome = true ∨ 0 < i.delay) →
      ∀ c ∈ [Instr.br d off, .bz d sa off, .bnz d sa off, .bneg d sa off, .call d off, .ret d, .reti d, .yield d],
        ∃ t, exec c s = .next t ∧ t.jn d.val = { i.cut with fault := true } ∧ OnlyJoiner s t d)

/-- Repeat blocks, YIELD and interrupts (R256 to R261). -/
def Obligations.LoopsYieldAndInterrupts : Prop :=
  ∀ (s : State) (d : Die),
    let i := s.jn d.val
    let j := s.jv d.val
    (∀ (rot rsz : Bool) (stg : BitVec 2) (len : BitVec 6) (cnt : RepCount) (n : Nat),
      (match cnt with
        | .imm c => n = if c = 0 then 1024 else c.toNat
        | .reg sa => n = (j.rdS sa).toNat) →
      (YOpen s d [] → i.rep = none → i.delay = 0 → (rot = true ∨ rsz = false) →
        (1 ≤ n → n ≤ 1024 → CompletesY s (.rep d rot stg len cnt rsz) d
          { (if rot then { i with rotofs := 0, rotSmall := rsz } else i).advance 0 with
            rep := some ⟨i.pc + 8, len.toNat + 1, (if rot then n + stg.toNat else n) - 1, 0, n, rot, stg.toNat + 1, rsz⟩ }
          [(2, .count 2)]) ∧
        (n = 0 → CompletesY s (.rep d rot stg len cnt rsz) d ({ i with pc := i.pc + 8 * (len.toNat + 1) }.advance 0) [(2, .count 2)])) ∧
      (i.issuing = true → s.isUser d.val = false → (1024 < n ∨ i.rep.isSome = true ∨ 0 < i.delay ∨ rot = false ∧ rsz = true) →
        ∃ t, exec (.rep d rot stg len cnt rsz) s = .next t ∧ t.jn d.val = { i.cut with fault := true } ∧ OnlyJoiner s t d)) ∧
    (∀ b, i.issuing = true → i.bundleOk = true → i.xDest = none → i.flights = [] → i.xFlights = [] → i.branch = none →
      i.badBranch = none → i.rep = some b → ∃ t, exec (.nop d true) s = .next t ∧
      let u := t.jn d.val
      OnlyJoiner s t d ∧ u.cycle = i.cycle + 1 ∧
      (b.pos + 1 < b.len → u.pc = i.pc + 8 ∧ u.rep = some { b with pos := b.pos + 1 } ∧ u.rotofs = i.rotofs) ∧
      (b.len ≤ b.pos + 1 → u.rotofs = (if b.rot then (i.rotofs + 1) % (if b.small then 16 else 32) else i.rotofs) ∧
        (1 ≤ b.left → u.pc = b.start ∧ u.rep = some { b with pos := 0, left := b.left - 1 }) ∧
        (b.left = 0 → u.pc = i.pc + 8 ∧ u.rep = none))) ∧
    (i.issuing = true → i.bundleOk = true → i.rep = none → i.delay = 0 →
      let last := i.flights.foldl (fun m f => max m f.ret) (i.cycle + max 2 i.xLat)
      ∃ t, exec (.yield d) s = .next t ∧ (t.jn d.val).issuing = false ∧
        (last < i.slotLen → (t.jn d.val).slot = none ∧ (t.jn d.val).flights = [] ∧ (t.jn d.val).rep = none) ∧
        (i.slotLen ≤ last → (t.jn d.val).slot = i.slot ∧ (t.jn d.val).yieldAt = some last)) ∧
    ∀ mailbox : Bool,
      let src : Word := i.irqPending ||| (if mailbox then 1 else 0)
      (i.issuing = true → i.xDone = false → i.rep = none → i.delay = 0 → src ≠ 0 → i.irqEnabled = true →
        (s.runKind d.val = 1 ∨ s.runKind d.val = 5) → ∃ t, exec (.interruptTaken d mailbox) s = .next t ∧
        t.jn d.val = { i with epc := BitVec.ofNat 32 i.pc, icause := src, irqPending := 0, irqEnabled := false,
                              pc := spGet 0 i.entry 0xBF } ∧ OnlyJoiner s t d) ∧
      (i.irqEnabled = false ∨ i.rep.isSome = true ∨ (s.runKind d.val ≠ 1 ∧ s.runKind d.val ≠ 5) ∨ src = 0 →
        ∃ t, exec (.interruptTaken d mailbox) s = .next t ∧ t.jn d.val = { i with irqPending := src } ∧ OnlyJoiner s t d ∧
          t.regs = s.regs)

namespace Sys2Proof.Spec

open Sys2Proof.Machine

/-- The publish status word of a kind on a target, as Joiner d's data memory holds it (Table 7-11): state and the TICKNO the
Joiner's die counts. -/
def PubStatus (s : State) (d kind tgt st : Nat) : Prop :=
  dmWord (s.jn d).dm (pubStatusAddr kind tgt) = st * 2 ^ 28 + s.now d % 2 ^ 24

/-- The registers of a USER slot that has ended are cleared; the data memory stays (R234). -/
def Wiped (u j : Joiner) : Prop :=
  let z := Joiner.reset
  u.v = z.v ∧ u.accF = z.accF ∧ u.accV = z.accV ∧ u.s = z.s ∧ u.a = z.a ∧ u.m = z.m ∧ u.cb = z.cb ∧ u.cl = z.cl ∧ u.p = z.p ∧
    u.lr = 0 ∧ u.satf = 0 ∧ u.dm = j.dm

/-- Syllables that are illegal instructions whatever the code (R263). -/
def IllegalX (d : Die) (c : Instr) : Prop :=
  (∃ pred vd va, ∃ md : BitVec 5, 16 ≤ md.toNat ∧ c ∈ [Instr.vshl d pred vd va md, .vasr d pred vd va md, .vlsr d pred vd va md]) ∨
    ∃ pred va vb, c ∈ [Instr.vcmplt d pred 0 va vb, .vcmple d pred 0 va vb, .vcmpeq d pred 0 va vb]
def IllegalY (s : State) (d : Die) (c : Instr) : Prop :=
  let j := s.jv d.val
  (∃ dst sa sb b, ∃ _ : 8 ≤ (dst : BitVec 4).toNat, c ∈ [Instr.mmov d dst sa b, .cbset d dst sa sb]) ∨
  (∃ dst sp, (sp = 7 ∨ 10 ≤ (sp : BitVec 4).toNat) ∧ c = .mfs d dst sp) ∨
  (∃ sp sa, (sp ≠ 2 ∧ sp ≠ 3 ∧ sp ≠ 8) ∧ c = .mts d sp sa) ∨
  (∃ sd kk : BitVec 4, (13 ≤ kk.toNat ∨ 8 ≤ kk.toNat ∧ sd.toNat % 2 = 1) ∧ c = .rdpc d sd kk) ∨
  (∃ sd tgt kind idx, ((kind : BitVec 4) = 0 ∨ 8 < kind.toNat ∨ kind.toNat < 8 ∧ 8 ≤ (tgt : BitVec 5).toNat ∨
      kind = 8 ∧ tgt.toNat < 16 ∨ kind ≠ 7 ∧ idx ≠ 0) ∧ c = .pub d sd tgt kind idx) ∨
  (∃ sd tgt point dec sa sb bank, (8 ≤ (tgt : BitVec 5).toNat ∧ tgt.toNat < 16) ∧
    c ∈ [Instr.capreq d sd tgt point dec sa sb, .crel d tgt bank]) ∨
  (∃ v sr ecc, ∃ mm : Mem, (1 ≤ mm.g.toNat ∧ mm.g.toNat ≤ 3 ∨ mm.amode = 3) ∧
    c ∈ [Instr.vld d v mm ecc, .vldc d v mm ecc, .vldb d v mm ecc, .sld d sr mm ecc none, .vst d v mm, .sst d sr mm]) ∨
  (∃ v mm ecc, mm.g = 0 ∧ mm.amode = 1 ∧ ((j.rdA mm.a).toNat % 64 ≠ 0 ∨ 0xE0000 ≤ (j.rdA mm.a).toNat) ∧
    c ∈ [Instr.vld d v mm ecc, .vldc d v mm ecc, .vst d v mm]) ∨
  (∃ sr mm ecc, mm.g = 0 ∧ mm.amode = 1 ∧ ((j.rdA mm.a).toNat % 4 ≠ 0 ∨ 0xE0300 ≤ (j.rdA mm.a).toNat) ∧
    c ∈ [Instr.sld d sr mm ecc none, .sst d sr mm]) ∨
  (∃ v sr, j.xDest = some (destV (v : BitVec 6).toNat) ∧ c = .vsplat d v sr) ∨
  ∃ p sr, j.xDest = some (destP (p : BitVec 3).toNat) ∧ c = .pset d sr p

end Sys2Proof.Spec

/-! ### Requests of the Joiner, illegal instructions, arrival of results -/

/-- System requests (R221, R222, R252, R253). -/
def Obligations.PublishCaptureReleaseRetire : Prop :=
  ∀ (s : State) (d : Die) (sd : BitVec 4) (tgt : BitVec 5) (point dec : BitVec 3) (sa sb : BitVec 4) (kind : BitVec 4)
    (idx : BitVec 2) (bank : Bool),
    let i := s.jn d.val
    let j := s.jv d.val
    let next := i.advance 0
    let one : Nat × Eff := (2, .count 2)
    let own := s.isUser d.val = false ∨ tgt.toNat = s.runTarget d.val
    let clu := clusterOf tgt.toNat
    (YOpen s d [destS sd.toNat] → own →
      (1 ≤ kind.toNat ∧ kind.toNat ≤ 7 ∧ tgt.toNat < 8 ∨ kind = 8 ∧ 16 ≤ tgt.toNat → kind = 7 ∨ idx = 0 →
        (s.isUser d.val = true → s.granted d.val tgt.toNat kind.toNat = true) →
        CompletesY s (.pub d sd tgt kind idx) d next
          [(2, .askPub sd.toNat tgt.toNat kind.toNat idx.toNat), (2, .pub tgt.toNat kind.toNat idx.toNat), one]) ∧
      (tgt.toNat < 8 ∨ 16 ≤ tgt.toNat →
        CompletesY s (.capreq d sd tgt point dec sa sb) d next
          [(2, .askCap sd.toNat tgt.toNat point.toNat dec.toNat (j.rdS sa) (j.rdS sb)),
            (2, .capreq tgt.toNat point.toNat dec.toNat (j.rdS sa) (j.rdS sb)), one])) ∧
    (YOpen s d [] → own → (tgt.toNat < 8 ∨ 16 ≤ tgt.toNat) →
      CompletesY s (.crel d tgt bank) d next [(2, .crel tgt.toNat bank.toNat), one]) ∧
    (i.issuing = true → i.bundleOk = true → i.branch = none → i.badBranch = none → i.xDest = none → i.xFlights = [] →
      (tgt.toNat < 8 ∨ 16 ≤ tgt.toNat) → ∀ at_ ret : Nat,
      (∀ n w : Word,
        let bad := n.toNat = 0 ∨ 512 < n.toNat ∨ (2 ^ 31 ≤ w.toNat ∧ 2048 ≤ w.toNat - 2 ^ 31) ∨ (w.toNat < 2 ^ 31 ∧ w ≠ 0) ∨
          (if tgt.toNat < 8 then 5 else 2) < point.toNat
        let code := if s.reaches d.val (dieOfTarget tgt.toNat) = false then 5 else if bad then 2
          else if (s.fifo clu).queued.isSome then 1 else 0
        (i.flights = [⟨at_, i.cycle + 1, ret, .askCap sd.toNat tgt.toNat point.toNat dec.toNat n w⟩] →
          ∃ t, exec (.nop d true) s = .next t ∧ (t.jv d.val).rdS sd = BitVec.ofNat 32 code ∧ t.fifos = s.fifos) ∧
        (i.flights = [⟨at_, i.cycle + 1, i.cycle + 1, .capreq tgt.toNat point.toNat dec.toNat n w⟩] →
          ∃ t, exec (.nop d true) s = .next t ∧
            (code = 0 → (t.fifo clu).queued = some ⟨point.toNat, n.toNat, dec.toNat,
              if 2 ^ 31 ≤ w.toNat then some (w.toNat % 2 ^ 31) else none, s.later d.val 1⟩) ∧
            (code ≠ 0 → t.fifos = s.fifos))) ∧
      (i.flights = [⟨at_, i.cycle + 1, i.cycle + 1, .crel tgt.toNat bank.toNat⟩] → ∃ t, exec (.nop d true) s = .next t ∧
        (s.reaches d.val (dieOfTarget tgt.toNat) = true → (s.fifo clu).filling = none →
          (t.fifo clu).bank bank.toNat = CapBank.reset ∧ (t.fifo clu).bank (!bank).toNat = (s.fifo clu).bank (!bank).toNat) ∧
        (s.reaches d.val (dieOfTarget tgt.toNat) = false → t.fifos = s.fifos)) ∧
      (∀ k x : Nat,
        let words := s.pubWords d.val k tgt.toNat x
        let die := dieOfTarget tgt.toNat
        let code := if s.servJ die ≠ d.val ∨ s.sys.bridgeLost = true ∧ die ≠ d.val then 5
          else if (s.findPub k tgt.toNat).isSome then 1
          else if s.takesPublish k tgt.toNat (words.getD 33 0) (s.isUser d.val) = false then 2
          else if s.commitHolds tgt.toNat = true ∨ s.loadHolds k tgt.toNat = true then 3
          else if k = 4 ∧ s.afeWithin tgt.toNat words = false then 4 else 0
        (i.flights = [⟨at_, i.cycle + 1, ret, .askPub sd.toNat tgt.toNat k x⟩] → ∃ t, exec (.nop d true) s = .next t ∧
          (t.jv d.val).rdS sd = BitVec.ofNat 32 code ∧ t.pubs = s.pubs ∧ (t.jn d.val).dm = i.dm) ∧
        (i.flights = [⟨at_, i.cycle + 1, i.cycle + 1, .pub tgt.toNat k x⟩] → ∃ t, exec (.nop d true) s = .next t ∧
          (code ≠ 0 → t.pubs = s.pubs) ∧
          (code = 0 → ∃ p, t.pubs = s.pubs ++ [p] ∧ p.die = d.val ∧ p.kind = k ∧ p.tgt = tgt.toNat ∧ p.words = words ∧
            p.epoch = s.now d.val ∧ p.gen = s.cfgGen (s.domOfDie die) ∧ p.phase = .writing ∧ PubStatus t d.val k tgt.toNat 1) ∧
          (code = 1 → PubStatus t d.val k tgt.toNat 9) ∧ (code = 2 → PubStatus t d.val k tgt.toNat 7) ∧
          (code = 3 → PubStatus t d.val k tgt.toNat 6) ∧ (code = 4 → PubStatus t d.val k tgt.toNat 8))))

/-- Illegal instructions and sandbox faults (R226, R255, R263). -/
def Obligations.IllegalInstructionsAndSandbox : Prop :=
  ∀ (s : State) (d : Die) (c : Instr),
    let i := s.jn d.val
    let sandboxed := ∃ t, exec c s = .next t ∧ (t.jn d.val).slot = none ∧ (t.jn d.val).flights = [] ∧ Wiped (t.jn d.val) i ∧
      t.rd (JNR.SANDBOX_CNT d.val) = (s.rd (JNR.SANDBOX_CNT d.val) + 1) % 2 ^ 32 ∧ KeepsRequests s t ∧ t.fifos = s.fifos ∧
      t.pubs = s.pubs
    i.issuing = true →
      (IllegalX d c ∧ i.xDone = false ∨ IllegalY s d c ∨
        (i.bundleOk = false ∧ ((∃ pred vd va vb, c = .vadd d pred vd va vb) ∧ i.xDone = false ∨
          (∃ dst sa b, c = .sadd d dst sa b) ∨ c = .nop d true)) →
        (s.isUser d.val = false → ∃ t, exec c s = .next t ∧ t.jn d.val = { i.cut with fault := true } ∧ OnlyJoiner s t d) ∧
        (s.isUser d.val = true → sandboxed)) ∧
      (s.isUser d.val = true →
        (c ∈ [Instr.reti d, .mts d 8 0, .mfs d 0 8, .mfs d 0 9] → sandboxed) ∧
        (∀ sd tgt point dec sa sb bank kind idx, (tgt : BitVec 5).toNat ≠ s.runTarget d.val →
          c ∈ [Instr.pub d sd tgt kind idx, .capreq d sd tgt point dec sa sb, .crel d tgt bank] → sandboxed) ∧
        (∀ sd tgt kind, (tgt : BitVec 5).toNat = s.runTarget d.val → tgt.toNat < 8 → 1 ≤ (kind : BitVec 4).toNat → kind.toNat ≤ 6 →
          s.granted d.val tgt.toNat kind.toNat = false → c = .pub d sd tgt kind 0 → sandboxed))

/-- Latencies, lane masks and the order of arrival (R236, R237, R239, Table 8-3). -/
def Obligations.ResultsArriveAtTheirLatency : Prop :=
  ∀ (s : State) (d : Die) (pred : BitVec 3) (vd va vb : BitVec 6) (acc : BitVec 2) (md : BitVec 5),
    let j := s.jn d.val
    let mask := gate j pred
    let f := fun k => (vLane j va k).toInt + (vLane j vb k).toInt
    (XOpen s d → j.branch = none → j.badBranch = none → j.flights = [] → j.rep = none → j.rotofs < (if j.rotSmall then 16 else 32) →
      (j.cycle + 2 < j.slotLen → ∃ t u, exec (.vadd d pred vd va vb) s = .next t ∧ exec (.nop d true) t = .next u ∧
        (∀ k < 32, vLane (u.jv d.val) vd k = if mask.getLsbD k then BitVec.ofInt 16 (clip 16 (f k)) else vLane j vd k) ∧
        (∀ r, r ≠ vd → (u.jv d.val).rdV r = j.rdV r) ∧
        ((u.jv d.val).satf = j.satf ||| (if overflows 16 mask f then 0x10 else 0)) ∧ (u.jn d.val).pc = j.pc + 8 ∧
        (u.jn d.val).cycle = j.cycle + 1) ∧
      (j.cycle + 2 < j.slotLen → { j with pc := j.pc + 8 }.bundleOk = true →
        ∃ t u w, exec (.vext d pred vd acc md) s = .next t ∧ exec (.nop d true) t = .next u ∧
        exec (.nop d true) u = .next w ∧ (u.jv d.val).rdV vd = j.rdV vd ∧
        ∀ k < 32, vLane (w.jn d.val) vd k =
          if mask.getLsbD k then BitVec.ofInt 16 (clip 16 (round (aLane j acc k).toInt md.toNat)) else vLane j vd k) ∧
      (j.slotLen ≤ j.cycle + 2 → ∃ t u, exec (.vadd d pred vd va vb) s = .next t ∧ exec (.nop d true) t = .next u ∧
        (u.jv d.val).v = j.v ∧ (u.jn d.val).flights = [])) ∧
    ∀ (dst sa : BitVec 4) (b : Src) (x : Word) (at_ ret : Nat), j.issuing = true → j.bundleOk = true → j.branch = none →
      j.badBranch = none → j.xFlights = [] → j.xDest = none → at_ < j.cycle → j.cycle + max 2 j.xLat < j.slotLen →
      j.flights = [⟨at_, j.cycle + 1, ret, .scalar dst.toNat x⟩] → ∃ t, exec (.sadd d dst sa b) s = .next t ∧
        (t.jv d.val).rdS dst = j.rdS sa + operand j b

/-! ### The schedule, capture packets, restarts and publishes -/

/-- Slots (R207 to R213, R234). -/
def Obligations.SlotsStartAndEnd : Prop :=
  ∀ (s : State) (d : Die) (k : Fin 32),
    let j := s.jn d.val
    let w := s.rd (JNR.SCHED d.val k.val)
    let kind := w / 2 ^ 29 % 8
    let div := w / 2 ^ 14 % 4
    let phase := w / 2 ^ 11 % 8
    let st := s.rd (JNR.STATE d.val)
    let book := j.slots.getD k.val .reset
    let inTick := s.now d.val % 2 ^ div = phase
    let tgt := w / 2 ^ 24 % 32
    let duty := s.now d.val % 2 ^ s.rd (JNR.RG_DUTY d.val (regionOfLine tgt)) = 0
    (j.slot = none → st = 2 → j.fault = false →
      (kind = 0 ∨ kind = 7 ∨ ¬ inTick ∨ book.reverted = true ∨
          (kind = 2 ∧ ¬ duty) →
        ∃ t, exec (.slotStart d k) s = .next t ∧ (t.jn d.val).slot = none ∧ t.rd (JNR.STATE d.val) = 2 ∧ t.joiners = s.joiners) ∧
      (kind = 1 → inTick → book.reverted = false → (s.reaches d.val 0 = true ∨ s.reaches d.val 1 = true) →
        ∃ t, exec (.slotStart d k) s = .next t ∧
          let u := t.jn d.val
          u.slot = some k.val ∧ u.cycle = 1 ∧ u.pc = spGet 0 j.entry (w / 2 ^ 16 % 256) ∧
          u.rdS 0 = BitVec.ofNat 32 ((if book.first = true ∨ book.changed = true then 2 ^ 31 else 0) +
            (if book.latePrev then 2 ^ 30 else 0) + (if book.dmErr then 2 ^ 29 else 0) + s.now d.val % 2 ^ 25) ∧
          u.rdS 1 = BitVec.ofNat 32 tgt ∧ u.satf = 0 ∧ u.rotofs = 0 ∧
          (k.val < 31 → u.slotLen = 64) ∧ (k.val = 31 → u.slotLen = (64 + s.tickAdj).toNat) ∧
          t.rd (JNR.STATE d.val) = 2 ∧ u.v = j.v ∧ u.dm = j.dm) ∧
      (kind = 2 → inTick → duty → book.reverted = false → s.sys.lanesIdle = false → j.rebuild = [] → s.tgtGone d.val w = true →
        ∃ t, exec (.slotStart d k) s = .next t ∧ (t.jn d.val).slot = none ∧ ((t.jn d.val).rdS 0).getLsbD 28 = true ∧
          (t.jn d.val).rdS 1 = BitVec.ofNat 32 tgt)) ∧
    (j.slot = none → st ≠ 2 → ∃ t, exec (.slotStart d k) s = .next t ∧ t.joiners = s.joiners ∧ OnlyJoiner s t d) ∧
    (j.slot = some k.val → j.yieldAt = none → j.badBranch = none → j.flights = [] → ∃ t, exec (.slotCutoff d) s = .next t ∧
      let u := t.jn d.val
      let b := u.slots.getD k.val .reset
      u.slot = none ∧ u.flights = [] ∧ u.dm = j.dm ∧ b.lateNow = true ∧ b.overruns = book.overruns + 1 ∧
      (kind = 6 → ∀ r : BitVec 4, u.rdS r = 0) ∧ (kind ≠ 6 → u.s = j.s ∧ u.v = j.v ∧ b.revertDue = book.revertDue) ∧
      b.reverted = book.reverted ∧
      (kind = 6 → s.rd (JNR.LATE_LIMIT d.val) ≤ book.overruns + 1 → b.revertDue = true) ∧
      (kind = 6 → book.overruns + 1 < s.rd (JNR.LATE_LIMIT d.val) → b.revertDue = book.revertDue) ∧
      (kind = 1 → 15 ≤ book.overruns → u.fault = true) ∧ (kind ≠ 1 → u.fault = j.fault)) ∧
    (j.slot = none → ∃ t, exec (.slotCutoff d) s = .next t ∧ t.joiners = s.joiners ∧ t.regs = s.regs)

/-- Capture FIFO packets (R214 to R218). -/
def Obligations.CapturePacketsFillAndEnd : Prop :=
  ∀ (s : State) (c : Chan) (r : CapReq) (flips : List (BitVec 128)),
    let f := s.fifo c.val
    (f.queued = some r → f.filling = none →
      (s.capturing c.val = true → (f.a.full = false ∨ f.b.full = false) → ∃ t, exec (.captureFillStart c) s = .next t ∧
        let g := t.fifo c.val
        let b := if f.a.full then 1 else 0
        g.queued = none ∧ g.filling = some (b, r) ∧ (g.bank b).full = false ∧ (g.bank b).words = [] ∧
        (g.bank b).pkt = (f.pkt + 1) % 256 ∧ g.pkt = (f.pkt + 1) % 256 ∧ (g.bank b).point = r.point ∧
        g.bank (1 - b) = f.bank (1 - b) ∧ (∀ e, e ≠ c.val → t.fifo e = s.fifo e) ∧ t.regs = s.regs) ∧
      (s.capturing c.val = false ∨ f.a.full = true ∧ f.b.full = true → ∃ t, exec (.captureFillStart c) s = .next t ∧
        t.fifos = s.fifos ∧ t.regs = s.regs)) ∧
    (∀ b, b < 2 → f.filling = some (b, r) → 0 < r.count →
      ((f.bank b).words.length = r.count → ∃ t ws, exec (.capturePacketEnd c flips) s = .next t ∧
        let k := (t.fifo c.val).bank b
        k.full = true ∧ k.trunc = false ∧ (t.fifo c.val).filling = none ∧ k.words.length = r.count ∧
        k.words = struck flips ws ∧ ws.map (·.1) = (f.bank b).words.map (·.1) ∧ ws.dropLast = (f.bank b).words.dropLast ∧
        (∃ w p, ws.getLast? = some (w, p) ∧ p.getLsbD 15 = true ∧ p.getLsbD 14 = false ∧ p.toNat % 16 = parBits w) ∧
        k.tick = (f.bank b).tick ∧ k.off = (f.bank b).off ∧
        (t.jn (s.servJ (if c.val < 8 then dieOfLine c.val else dieOfHost (c.val - 8)))).irqPending.getLsbD 1 = true ∧
        (∀ e, e ≠ c.val → t.fifo e = s.fifo e) ∧ t.regs = s.regs) ∧
      ((f.bank b).words.length ≠ r.count → ∃ t, exec (.capturePacketEnd c flips) s = .next t ∧ t.fifos = s.fifos ∧ t.regs = s.regs))

/-- Restart and failure of a Joiner (R229). -/
def Obligations.JoinerFaultsAndRestarts : Prop :=
  ∀ (s : State) (d : Die) (cause : JoinerCause) (lost : Bool),
    let j := s.jn d.val
    let st := s.rd (JNR.STATE d.val)
    let recent := j.restarts.filter fun t => decide (ticksSince s.tickno t < s.ticksPerSecond)
    (st = 2 ∨ st = 3 → (cause = .programMemory ∨ j.fault = true) → ∃ t, exec (.joinerFault d cause) s = .next t ∧
      (t.jn d.val).slot = none ∧ (t.jn d.val).flights = [] ∧
      (∀ p ∈ t.pubs, p.die = d.val → p.phase ≠ .writing ∧ p.phase ≠ .verifying) ∧
      (∀ p ∈ s.pubs, p.die ≠ d.val → (∀ q ∈ s.pubs, q.die = d.val → q.kind ≠ p.kind ∨ q.tgt ≠ p.tgt) → p ∈ t.pubs) ∧
      (recent.length < 3 → t.rd (JNR.STATE d.val) = 3) ∧
      (3 ≤ recent.length → t.rd (JNR.STATE d.val) = 4 ∧ t.bit OBS.FAULT_STAT 1 = true ∧ t.sys.pins.fault = true)) ∧
    ((st ≠ 2 ∧ st ≠ 3) ∨ (cause ≠ .programMemory ∧ j.fault = false) → ∃ t, exec (.joinerFault d cause) s = .next t ∧
      t.joiners = s.joiners ∧ t.regs = s.regs) ∧
    (st = 3 → ∃ t, exec (.joinerRestartComplete d lost) s = .next t ∧ t.rd (JNR.STATE d.val) = 2 ∧
      t.rd (JNR.RESTART_CNT d.val) = (s.rd (JNR.RESTART_CNT d.val) + 1) % 2 ^ 16 ∧ (t.jn d.val).fault = false ∧
      (t.jn d.val).irqEnabled = true ∧ (t.jn d.val).irqPending = 0 ∧ (t.jn d.val).slot = none ∧
      t.bit (JNR.FLAGS d.val) 2 = lost ∧ t.bit (JNR.FLAGS d.val) 3 = decide ((t.jn d.val).rebuild ≠ []) ∧
      (lost = true → (t.jn d.val).dm = [] ∧ (t.jn d.val).rebuild = s.masters d.val) ∧
      ∀ b ∈ (t.jn d.val).slots, b.first = true ∧ b.overruns = 0 ∧ b.latePrev = false) ∧
    (st ≠ 3 → ∃ t, exec (.joinerRestartComplete d lost) s = .next t ∧ t.joiners = s.joiners ∧ t.regs = s.regs)

/-- Publishes at their boundary (R36, R129, R221, R222). -/
def Obligations.PublishesArmAndSwap : Prop :=
  ∀ (s : State) (kind : Fin 8) (tgt : Chan) (p : Publish),
    let k := kind.val + 1
    let tc := pubTarget tgt.val
    let die := dieOfTarget tc
    s.findPub k tc = some p →
    (p.phase = .complete →
      let run := s.cfgGen (s.domOfDie die)
      (s.pubBarred k tc none = true → p.die < 2 → ∃ t, exec (.publishArm kind tgt) s = .next t ∧ t.findPub k tc = none ∧
        PubStatus t p.die k tc 7 ∧ t.rd (JNR.PUBLISH_SUPPRESSED p.die) = (s.rd (JNR.PUBLISH_SUPPRESSED p.die) + 1) % 2 ^ 32) ∧
      (s.pubBarred k tc none = false →
        (p.gen ≠ run → p.die < 2 → ∃ t, exec (.publishArm kind tgt) s = .next t ∧ t.findPub k tc = none ∧
          PubStatus t p.die k tc 5 ∧ t.rd (JNR.PUBLISH_STALE p.die) = (s.rd (JNR.PUBLISH_STALE p.die) + 1) % 2 ^ 32) ∧
        (p.gen = run → s.swapFree k tc (s.later die 1) 4 = false → ∃ t, exec (.publishArm kind tgt) s = .next t ∧
          t.pubs = s.pubs ∧ t.joiners = s.joiners ∧ t.regs = s.regs) ∧
        (p.gen = run → s.swapFree k tc (s.later die 1) 4 = true → ∃ t, exec (.publishArm kind tgt) s = .next t ∧
          t.findPub k tc = some { p with phase := .armed, due := s.later die 1 } ∧ PubStatus t p.die k tc 3 ∧ t.regs = s.regs))) ∧
    (p.phase ≠ .complete → ∃ t, exec (.publishArm kind tgt) s = .next t ∧ t.pubs = s.pubs ∧ t.regs = s.regs) ∧
    (p.phase ≠ .armed ∨ s.dueBefore .publish = true → ∃ t, exec (.publishSwap kind tgt) s = .next t ∧ t.pubs = s.pubs ∧ t.regs = s.regs) ∧
    (p.phase = .armed → s.dueAt (dieOfTarget p.tgt) p.due = true → s.dueBefore .publish = false → p.kind = k → p.tgt = tc → p.die < 2 →
      (s.pubBarred k tc (some p.due) = true → ∃ t, exec (.publishSwap kind tgt) s = .next t ∧ t.findPub k tc = none ∧
        PubStatus t p.die k tc 7) ∧
      (s.pubBarred k tc (some p.due) = false → ∃ t, exec (.publishSwap kind tgt) s = .next t ∧
      t.findPub k tc = none ∧ t.findSwapped k tc = some { p with phase := .swapped } ∧ PubStatus t p.die k tc 4 ∧
      t.lastSwap k tc = some (s.now die) ∧
      t.rd (JNR.PUBLISH_CNT p.die) = (s.rd (JNR.PUBLISH_CNT p.die) + 1) % 2 ^ 32 ∧
      (k = 1 → tc < 8 → t.actBank tc .ctx = 1 - s.actBank tc .ctx ∧ t.shadow tc .ctx = 0 ∧
        (t.tbl tc .ctx).active = (s.tbl tc .ctx).shadow ∧ (t.tbl tc .ctx).bank0 = (s.tbl tc .ctx).bank0 ∧
        (t.tbl tc .ctx).bank1 = (s.tbl tc .ctx).bank1 ∧ (t.tbl tc .ctx).masterBad = [] ∧ t.bit (CTX.FLAGS tc) 0 = false ∧
        (t.tbl tc .ctx).window = some (s.later die 16) ∧
        t.rd (CTX.SET_ID tc) = (s.tbl tc .ctx).shadow.setId % 2 ^ 16 ∧ t.rd (CTX.EPOCH tc) = (s.tbl tc .ctx).shadow.epoch % 2 ^ 48) ∧
      (k = 2 → tc < 8 → t.actBank tc .shp = 1 - s.actBank tc .shp ∧ (t.tbl tc .shp).active = (s.tbl tc .shp).shadow ∧
        t.rd (LTX.SHP_SET_ID tc) = (s.tbl tc .shp).shadow.setId % 2 ^ 16 ∧ t.bit (CTX.FLAGS tc) 1 = false) ∧
      (k = 3 → tc < 8 → 33 ≤ p.words.length → (∀ i < 33, t.rd (LRX.FFE_COEF tc i) = p.words.getD i 0 % 1024) ∧ (t.rxL tc).ffeDecl = p.words.getD 33 0 ∧
        (t.rxL tc).ffeSetId = p.setId) ∧
      (k = 4 → tc < 8 → t.rd (LRX.CTLE_PEAK tc) = p.words.getD 0 0 % 2 ^ fieldWidth (LRX.CTLE_PEAK tc) ∧
        t.rd (LRX.VGA_GAIN tc) = p.words.getD 1 0 % 2 ^ fieldWidth (LRX.VGA_GAIN tc) ∧ (t.rxL tc).afeAt = some (s.now die)) ∧
      (k = 5 → tc < 8 → ∀ i < p.words.length / 2, (t.rxL tc).slices.getD i 0 = p.words.getD (2 * i) 0 + 65536 * p.words.getD (2 * i + 1) 0) ∧
      (k = 6 → tc < 8 → 8 ≤ p.words.length → ∀ i < 4, t.rd (LTX.SUBDAC_TRIM tc i) =
        (p.words.getD (2 * i) 0 + 65536 * p.words.getD (2 * i + 1) 0) % 2 ^ fieldWidth (LTX.SUBDAC_TRIM tc i)) ∧
      (k = 7 → tc < 8 → (t.rxL tc).llr = p.words ∧ t.rd (LRX.LLR_SET_ID tc) = p.words.getD 3 0 % 2 ^ 16) ∧
      (k = 8 → 16 ≤ tc → 15 ≤ p.words.length → (∀ i < 12, t.rd (HRX.FFE_COEF (tc - 16) i) = p.words.getD (i + 2) 0 % 256) ∧
        t.rd (HRX.CTLE_PEAK (tc - 16)) = p.words.getD 1 0 % 2 ^ fieldWidth (HRX.CTLE_PEAK (tc - 16)) ∧
        (t.hostL (tc - 16)).eqSetId = p.words.getD 0 0)))

namespace Sys2Proof.Spec

open Sys2Proof.Machine

/-- The thresholds at or below a sample: the first-pass level index (R62), and its level value (R66). -/
def levelIndex (z : Int) : Nat := if 256 ≤ z then 3 else if 0 ≤ z then 2 else if -256 ≤ z then 1 else 0
def levelVal (z : Int) : Int := 2 * (levelIndex z : Int) - 3

/-- A sum over the first n numbers. -/
def sumTo (n : Nat) (f : Nat → Int) : Int := ((List.range n).map f).sum

/-- A list of 128 values, one per parallel position. -/
def word {α : Type} (f : Nat → α) : List α := (List.range 128).map f

/-- The block symbols of 480 payload bits (R148 to R150): level indices in line order. -/
def blockSymbols (bs : List Bool) : List Nat :=
  (List.range 256).map fun k =>
    let cw := encodeWord (k % 4) ((List.range 120).map fun m => bs.getD (4 * m + k % 4) false)
    match cw.getD (2 * (k / 4)) false, cw.getD (2 * (k / 4) + 1) false with
    | false, false => 0
    | false, true => 1
    | true, true => 2
    | true, false => 3

/-- Level indices of 60 samples of host lane k (R181, R182): polarity, FFE over the samples held, the DFE tap times the last
level value subtracted, and the slicer. -/
def hostLevelsOf (s : State) (k : Nat) (xs : List (BitVec 10)) : List Nat :=
  let held := (s.hostL k).samples ++ xs.map fun c => if s.rd (HRX.INPUT_POL k) = 1 then -c.toInt else c.toInt
  let f := fun (q : Nat) => clip 10 ((sumTo 12 (fun i => s.rdS (HRX.FFE_COEF k i) * held.getD (q + 11 - i) 0) + 32) / 64)
  ((List.range 60).foldl (fun (acc : List Nat × Nat) q =>
    let v := levelIndex (f q - s.rdS (HRX.DFE_COEF k) * (2 * (acc.2 : Int) - 3))
    (acc.1 ++ [v], v)) ([], (s.hostL k).decided)).1

/-- The bits a host lane receives (R182, R187): precoding removed where it is in use, then Gray code. -/
def hostBitsOf (s : State) (k : Nat) (xs : List (BitVec 10)) : List Bool :=
  let vs := hostLevelsOf s k xs
  let us := if s.bit (HRX.FLAGS k) 5 then
      (List.range 60).map fun i => (vs.getD i 0 + (if i = 0 then (s.hostL k).rxPrev else vs.getD (i - 1) 0)) % 4 else vs
  us.flatMap fun v => if v = 0 then [false, false] else if v = 1 then [false, true] else if v = 2 then [true, true] else [true, false]

/-- Only the host pair of a line lane, and one tap of its region, differ among the host records. -/
def OnlyPair (s t : State) (n : Nat) (out : Bool) : Prop :=
  (∀ k, k ≠ 2 * n → k ≠ 2 * n + 1 → t.hostL k = s.hostL k) ∧ ∀ i, i ≠ tapIx (regionOfHost (2 * n)) out → t.tap i = s.tap i

end Sys2Proof.Spec

/-! ### Ticks and words -/

/-- The tick boundary (R9, R29, R43, R57, R67, R466). -/
def Obligations.TickBoundaryEndsTheTick : Prop :=
  ∀ (s : State) (f : TickFacts),
    let t1 := (s.tickno + 1) % 2 ^ 48
    let ends := fun (d : Nat) => s.dieTicks d t1 = true ∧ (d = 0 ∨ s.tick1 = none)
    (WellFormed.tickFacts f = false → exec (.tickBoundary f) s = .refused (.illFormed "TICK_BOUNDARY")) ∧
    (WellFormed.tickFacts f = true → s.coreOn = true → f.own1 = false → s.sys.ten.load = none →
      ∃ t, exec (.tickBoundary f) s = .next t ∧
      t.tickno = t1 ∧ t.tick1 = s.tick1 ∧ t.tickAdj = s.sys.ten.adj ∧ t.sys.ten.adj = 0 ∧
      (∀ n < 8, ends (dieOfLine n) →
        let r := s.rxL n
        t.rd (LRX.CLIP_CNT n) = r.clips % 2 ^ fieldWidth (LRX.CLIP_CNT n) ∧
        t.bit (LRX.FLAGS n) 4 = decide (s.rd (LRX.CLIP_THR n) < r.clips) ∧
        t.rd (LRX.TR_FREQ n) = enc 16 (clip 16 (r.f.toInt * 100 / 549756)) ∧
        t.rd (LTX.SAT_CNT n) = (s.txL n).sat % 2 ^ fieldWidth (LTX.SAT_CNT n) ∧
        t.bit (LTX.FLAGS n) 4 = decide ((s.txL n).sat ≠ 0) ∧
        t.rd (FEC.CW_TOT n) = (s.rd (FEC.CW_TOT n) + r.cw) % 2 ^ fieldWidth (FEC.CW_TOT n) ∧
        (t.rxL n).clips = 0 ∧ (t.rxL n).words = 0 ∧ (t.rxL n).absE = 0 ∧ (t.rxL n).cw = 0 ∧ (t.txL n).sat = 0) ∧
      (ends 0 → t.seq0 = (s.seq0 + 1) % 2 ^ 32 ∧ t.rd OBS.SNAP_SEQ = (s.seq0 + 1) % 2 ^ 32 ∧
        (∀ n < 4, t.image0.get (LRX.CLIP_CNT n) = (s.rxL n).clips % 2 ^ fieldWidth (LRX.CLIP_CNT n)) ∧
        (s.split = false → s.tickno < 2 ^ 48 → t.rd OBS.SNAP_TICKNO = s.tickno)) ∧
      (∀ d < 2, ends d → (s.jn d).slot = none →
        (s.rd (JNR.STATE d) ≠ 0 →
          t.rd (JNR.PC_CYCLE d) = (s.rd (JNR.PC_CYCLE d) + (2048 + s.tickAdj).toNat) % 2 ^ 64) ∧
        ∀ k < 32, t.rd (JNR.OVR_CNT d k) =
            (s.rd (JNR.OVR_CNT d k) + (if ((s.jn d).slots.getD k .reset).lateNow then 1 else 0)) % 2 ^ 32 ∧
          (((s.jn d).slots.getD k .reset).revertDue = true → s.schedAt d t1 = false →
            ((t.jn d).slots.getD k .reset).reverted = true ∧ ((t.jn d).slots.getD k .reset).revertDue = false))) ∧
    (WellFormed.tickFacts f = true → s.coreOn = true → f.own1 = false → ∀ v again, s.sys.ten.load = some (v, again) →
      ∃ t, exec (.tickBoundary f) s = .next t ∧ t.tickno = addTicks v 1 ∧ t.sys.ten.load = none ∧ t.sys.ten.loaded = true ∧
        t.rd (TEN.CHAIN_STATE 0) = 3 ∧ (again = true → t.sys.ten.owed = false ∧
          t.rd (TEN.RESYNC_CNT 0) = (s.rd (TEN.RESYNC_CNT 0) + 1) % 2 ^ fieldWidth (TEN.RESYNC_CNT 0))) ∧
    (WellFormed.tickFacts f = true → s.coreOn = true → f.own1 = true →
      (∀ t0, s.tick1 = some t0 → ∃ t, exec (.tickBoundary f) s = .next t ∧ t.tickno = s.tickno ∧
        t.tick1 = some ((t0 + 1) % 2 ^ 48) ∧ t.tickAdj = s.tickAdj) ∧
      (s.tick1 = none → ∃ t, exec (.tickBoundary f) s = .next t ∧ KeepsTick s t ∧ t.regs = s.regs ∧ KeepsPath s t)) ∧
    (WellFormed.tickFacts f = true → s.coreOn = false → ∃ t, exec (.tickBoundary f) s = .next t ∧ KeepsTick s t ∧
      t.regs = s.regs ∧ KeepsPath s t) ∧
    ∃ t, exec .aonTickAdvance s = .next t ∧ KeepsPath s t ∧ KeepsRequests s t ∧ t.image0 = s.image0 ∧
      t.tickno = if s.coreOn then s.tickno else t1

/-- One receive word (R57 to R59, R66). -/
def Obligations.LineReceiveWord : Prop :=
  ∀ (s : State) (n : Lane) (codes spare : List (BitVec 7)) (ups : List Upset) (bad : List Nat),
    let c := Instr.lineRxWord n codes spare ups bad
    let r := s.rxL n.val
    let st := s.rd (LRX.STATE n.val)
    (codes.length ≠ 128 ∨ spare.length ≠ 2 → exec c s = .refused (.illFormed "LINE_RX_WORD")) ∧
    (codes.length = 128 → spare.length = 2 → st = 0 → ∃ t, exec c s = .next t ∧ t.rx = s.rx ∧ t.regs = s.regs ∧ KeepsPath s t) ∧
    (codes.length = 128 → spare.length = 2 → st ≠ 0 → ∃ t, exec c s = .next t ∧
      let u := t.rxL n.val
      let corr := word fun q =>
        let w := r.slices.getD (s.rd (LRX.SLICE_MAP n.val (q % 64))) 0
        clip 10 (((4 * (codes.getD q 0).toInt - sgn 8 (w / 2 ^ 24)) * ((w / 2 ^ 14 % 1024 : Nat) : Int) + 256) / 512)
      let held := r.y1 ++ r.y2 ++ corr
      let z := word fun q => clip 11 ((sumTo (s.rd (LRX.FFE_TAPS n.val)) (fun k =>
        (if k < 33 then s.rdS (LRX.FFE_COEF n.val k) else 0) * held.getD (128 + q + s.rd (LRX.FFE_MAIN n.val) - k) 0) + 32) / 64)
      let before := fun (k : Nat) => if k = 0 then r.z2.getLastD 0 else z.getD (k - 1) 0
      let e := sumTo 128 fun k => z.getD k 0 * levelVal (before k) - before k * levelVal (z.getD k 0)
      let g := r.gain.getD (1 + s.rd (LRX.TR_ROW n.val)) 0
      let f' := if g.testBit 21 then r.f else r.f + BitVec.ofInt 32 (e * 65536 / 2 ^ (g / 2 ^ 22 % 32))
      u.y2 = corr ∧ u.y1 = r.y2 ∧ u.z2 = z ∧ u.z1 = r.z2 ∧
      (st = 3 ∨ st = 2 ∧ r.step ≠ 3 → u.f = f' ∧ u.p = r.p + f' + BitVec.ofInt 32 (e * 65536 / 2 ^ (g / 2 ^ 27 % 32))) ∧
      (st = 1 ∨ 4 ≤ st ∨ st = 2 ∧ r.step = 3 → u.f = r.f ∧ u.p = r.p) ∧
      u.words = r.words + 1 ∧ u.absE = r.absE + e.natAbs ∧
      u.clips = r.clips + (codes.filter fun x => decide (x.toInt = -64 ∨ x.toInt = 63)).length ∧
      u.overNow = (r.overNow || decide (54975581 < u.f.toInt.natAbs)) ∧
      (∀ m, m ≠ n.val → t.rxL m = s.rxL m) ∧ t.tx = s.tx ∧ OnlyPair s t n.val true ∧ t.joiners = s.joiners ∧ t.tickno = s.tickno)

/-- One transmit word (R93, R144, R147 to R149, R182, R187). -/
def Obligations.LineTransmitWord : Prop :=
  ∀ (s : State) (n : Lane) (h0 h1 : List (BitVec 10)) (ups : List Upset),
    let c := Instr.lineTxWord n h0 h1 ups
    let x := s.txL n.val
    let st := s.rd (LTX.STATE n.val)
    let on := fun (k : Nat) => 2 ≤ s.rd (HRX.STATE k) ∧ s.rd (HRX.STATE k) ≤ 5
    let b0 := hostBitsOf s (2 * n.val) h0
    let b1 := hostBitsOf s (2 * n.val + 1) h1
    let bits240 := (List.range 240).map fun b => (if b / 4 % 2 = 0 then b0 else b1).getD (4 * (b / 8) + b % 4) false
    (h0.length ≠ 60 ∨ h1.length ≠ 60 → exec c s = .refused (.illFormed "LINE_TX_WORD")) ∧
    (h0.length = 60 → h1.length = 60 →
      (st ≠ 2 → st ≠ 3 → ∃ t, exec c s = .next t ∧ t.regs = s.regs ∧ (st ≠ 1 → t.tx = s.tx ∧ t.joiners = s.joiners)) ∧
      (st = 2 ∨ st = 3 → x.fill = false → on (2 * n.val) → on (2 * n.val + 1) → s.fecMode (dieOfHost (2 * n.val)) ≠ 1 →
        (x.half = [] → x.coded = [] → ∃ t, exec c s = .next t ∧ (t.txL n.val).half = bits240 ∧ (t.txL n.val).coded = [] ∧
          (t.txL n.val).dac = x.dac ∧ t.regs = s.regs) ∧
        (x.half ≠ [] → ∃ t, exec c s = .next t ∧ (t.txL n.val).half = [] ∧
          (t.txL n.val).coded = (x.coded ++ blockSymbols (x.half ++ bits240)).drop 128)) ∧
      (st = 2 ∨ st = 3 → x.half ≠ [] → x.v2 ≠ [] → x.s2 ≠ [] → s.rd (LTX.SHP_EN n.val) = 0 → ∃ t, exec c s = .next t ∧
          let shaped := word fun q => 256 * (x.v2.getD q 0 : Int) - 384
          let held := x.s1 ++ x.s2 ++ shaped.map (clip 12)
          let raw := word fun q => (sumTo 9 (fun k => s.rdS (LTX.FIR_TAP n.val k) *
            held.getD (128 + q + s.rd (LTX.FIR_MAIN n.val) - k) 0) + 1024) / 2048
          (t.txL n.val).s2 = shaped.map (clip 12) ∧ (t.txL n.val).dac = raw.map (clip 7) ∧
          (t.txL n.val).sat = x.sat + (raw.filter fun u => decide (clip 7 u ≠ u)).length ∧
          (t.txL n.val).sense = ((x.sense + 1) % 128 + 1) % 128) ∧
      (∃ t, exec c s = .next t ∧ (∀ m, m ≠ n.val → t.txL m = s.txL m) ∧ t.rx = s.rx ∧ OnlyPair s t n.val false ∧
        (∀ d, ∃ dm, t.jn d = { s.jn d with dm := dm }) ∧
        (∀ d a, a < 0x42A20 + 0x4000 * n.val ∨ 0x42A20 + 0x4000 * n.val + 512 ≤ a →
          byteAt (t.jn d) a = byteAt (s.jn d) a) ∧ t.tickno = s.tickno))

/-- R26 over all states: the data path never writes what it reads its settings from. -/
def Obligations.DataPathKeepsItsSettings : Prop :=
  ∀ (s t : State) (n : Lane) (codes spare : List (BitVec 7)) (h0 h1 : List (BitVec 10)) (ups : List Upset) (bad : List Nat),
    (exec (.lineRxWord n codes spare ups bad) s = .next t ∨ exec (.lineTxWord n h0 h1 ups) s = .next t) →
      (∀ a, fieldCls a ≠ some .ro → t.rd a = s.rd a) ∧
      (∀ m, (t.rxL m).slices = (s.rxL m).slices ∧ (t.rxL m).llr = (s.rxL m).llr ∧ (t.rxL m).gain = (s.rxL m).gain ∧
        (t.rxL m).ffeDecl = (s.rxL m).ffeDecl) ∧
      (∀ m x, (t.tbl m x).bank0 = (s.tbl m x).bank0 ∧ (t.tbl m x).bank1 = (s.tbl m x).bank1 ∧
        (t.tbl m x).active = (s.tbl m x).active ∧ (t.tbl m x).shadow = (s.tbl m x).shadow ∧ t.actBank m x = s.actBank m x) ∧
      t.doms = s.doms ∧ t.live = s.live ∧ t.loads = s.loads ∧ t.pubs = s.pubs ∧ t.lanes = s.lanes

/-- The inner code, encoder against decoder, for all information bits (R150, R153, R154). -/
def Obligations.InnerCodeCorrectsOneError : Prop :=
  ∀ (c : Nat) (masks : List Nat) (info : List Bool), c < 4 → 0 ∈ masks → info.length = 120 →
    let sent := encodeWord c info
    let llr := fun (cw : List Bool) => cw.map fun b => if b then 15 else 7
    decodeWord masks c (llr sent) = ⟨info, 0, false, true⟩ ∧
    ∀ e < 128,
      let d := decodeWord masks c (llr ((List.range 128).map fun i => (sent.getD i false) ^^ decide (i = e)))
      d.info = info ∧ d.changed = 1 ∧ d.uncorr = false ∧ d.zero = decide (e = 127)

/-- R148: payload bits, pairs and codewords. -/
def Obligations.PairsSpreadOverCodewords : Prop :=
  ∀ bs : List Bool, bs.length = 480 →
    let pair := fun (m : Nat) => (bs.drop (4 * m)).take 4
    let cw := fun (c : Nat) => (encodeBlock bs).getD c []
    (∀ b < 480, ((pair (b / 4)).getD (b % 4) false = bs.getD b false) ∧ (cw (b % 4)).getD (b / 4) false = bs.getD b false) ∧
    (∀ m < 120, (pair m).length = 4 ∧ ∀ t < 4, (cw t).getD m false = (pair m).getD t false) ∧
    ∀ ds : List Decoded, ds.length = 4 → (∀ c < 4, (ds.getD c ⟨[], 0, false, false⟩).info = (cw c).take 120) → blockPayload ds = bs

/-! ### Context and shaping tables -/

/-- R121: the stored form of an entry, with single-error correction and double-error detection. -/
def Obligations.EntriesAreStoredAsTwoCodewords : Prop :=
  (∀ e < 65536, ∃ h l, storeWord e = h * 2 ^ 13 + l ∧ h < 2 ^ 13 ∧ l < 2 ^ 13 ∧ h = codeByte (e / 256) ∧ l = codeByte (e % 256)) ∧
  (∀ d < 256, codeByte d % 256 = d ∧ codeByte d < 2 ^ 13 ∧
    let b := fun i => d.testBit i
    let c := fun i => (codeByte d).testBit (8 + i)
    c 0 = (b 0 ^^ b 1 ^^ b 3 ^^ b 4 ^^ b 6) ∧ c 1 = (b 0 ^^ b 2 ^^ b 3 ^^ b 5 ^^ b 6) ∧ c 2 = (b 1 ^^ b 2 ^^ b 3 ^^ b 7) ∧
    c 3 = (b 4 ^^ b 5 ^^ b 6 ^^ b 7) ∧
    c 4 = (b 0 ^^ b 1 ^^ b 2 ^^ b 3 ^^ b 4 ^^ b 5 ^^ b 6 ^^ b 7 ^^ c 0 ^^ c 1 ^^ c 2 ^^ c 3)) ∧
  (∀ e < 65536, readWord (storeWord e) = .clean e ∧
    (∀ i < 26, readWord (storeWord e ^^^ 2 ^ i) = .corrected e) ∧
    ∀ i j, i < j → j < 26 → (j < 13 ∨ 13 ≤ i) → readWord (storeWord e ^^^ 2 ^ i ^^^ 2 ^ j) = .bad) ∧
  ∀ e f, e < 65536 → f < 65536 →
    (e % 256 = f % 256 → storeWord e % 2 ^ 13 = storeWord f % 2 ^ 13) ∧ (e / 256 = f / 256 → storeWord e / 2 ^ 13 = storeWord f / 2 ^ 13)

/-- Shadow writes, verification, loads and fills (R118, R126 to R128, R308). -/
def Obligations.ShadowsAreWrittenAndVerified : Prop :=
  (∀ (s : State) (n : Lane) (t : Tbl) (w : TblWrite) (ups : List Upset),
    let m := s.tbl n.val t
    let b := 1 - s.actBank n.val t
    m.write = some w →
    (w.verifying = false → reached (s.nowL n.val) w.due = true → m.fillDue = none →
      ∃ u, exec (.shadowWriteComplete t.kind n.val) s = .next u ∧
        let x := u.tbl n.val t
        x.bank b = w.set ∧ x.bank (1 - b) = m.bank (1 - b) ∧ x.active = m.active ∧ x.shadow = w.stamp ∧
        (∀ e ∈ x.upsets, e.bank = b → e.repl ∉ s.replReached n.val t) ∧ (∀ e ∈ x.poison, e.1 ≠ b) ∧ (x.write.map (·.verifying)) = some true ∧
        (∀ p, w.origin = .publish → s.findPub t.kind n.val = some p →
          u.findPub t.kind n.val = some { p with phase := .verifying } ∧ PubStatus u p.die t.kind n.val 2)) ∧
    (w.verifying = true ∨ reached (s.nowL n.val) w.due = false → ∃ u, exec (.shadowWriteComplete t.kind n.val) s = .next u ∧
      u.tbl n.val t = m ∧ u.regs = s.regs ∧ u.pubs = s.pubs) ∧
    (w.verifying = true → reached (s.nowL n.val) w.due = true → (∀ e ∈ m.upsets, e.bank = b → e.repl ∉ s.replReached n.val t) →
      ∃ u, exec (.shadowVerifyComplete t.kind n.val [] ups) s = .next u ∧ (u.tbl n.val t).write = none ∧
        (u.tbl n.val t).bank b = m.bank b ∧ u.actBank n.val t = s.actBank n.val t ∧
        (w.origin ≠ .load → u.shadow n.val t = 2) ∧
        (∀ p, w.origin = .publish → s.findPub t.kind n.val = some p →
          u.findPub t.kind n.val = some { p with phase := .complete, due := s.nowL n.val }) ∧
        (w.origin = .refresh ∨ w.origin = .zero → (u.tbl n.val t).armed = some w.origin ∧ (u.tbl n.val t).armedDue = s.later (dieOfLine n.val) 1) ∧
        (∀ l, w.origin = .load → s.findLoad t.kind n.val = some l → u.shadow n.val t = 3 ∧
          ⟨l.kind, l.inst, l.words, l.epoch⟩ ∈ (u.dom (s.domOfDie (dieOfLoad l.kind l.inst))).held ∧ l ∉ u.loads ∧
          ∀ r, l.ref = some r → (u.trans r.via).replies = (s.trans r.via).replies ++
            [⟨r, .ok, s.tickno % 65536, .data (le 2 (setIdOf l.kind l.words) ++ [3, 0] ++ le 6 l.epoch), true⟩])) ∧
    (w.verifying = false ∨ reached (s.nowL n.val) w.due = false →
      ∃ u, exec (.shadowVerifyComplete t.kind n.val [] ups) s = .next u ∧ u.tbl n.val t = m ∧ u.regs = s.regs)) ∧
  (∀ (s : State) (kind tgt : Nat) (p : Publish), 3 ≤ kind → s.findPub kind tgt = some p →
    (p.phase = .writing → reached (s.now (dieOfTarget tgt)) p.due = true → ∃ u, exec (.shadowWriteComplete kind tgt) s = .next u ∧
      u.findPub kind tgt = some { p with phase := .verifying } ∧ PubStatus u p.die kind tgt 2) ∧
    (p.phase = .verifying → ∃ u, exec (.shadowVerifyComplete kind tgt [] []) s = .next u ∧
      u.findPub kind tgt = some { p with phase := .complete } ∧ u.regs = s.regs)) ∧
  ∀ (s : State) (n : Lane) (t : Tbl),
    (∀ l, (s.loads.find? fun l => decide (l.kind = t.kind ∧ l.inst = n.val ∧ l.phase = .waits)) = some l →
      (s.loadMayStart n.val t = true → ∃ u, exec (.tableLoadWriteStart n t) s = .next u ∧ { l with phase := .writing } ∈ u.loads ∧
        ((u.tbl n.val t).write.map fun w => (w.origin, w.verifying, w.stamp)) = some (.load, false, l.stamp) ∧
        u.shadow n.val t = 1 ∧ (u.tbl n.val t).bank0 = (s.tbl n.val t).bank0 ∧ (u.tbl n.val t).bank1 = (s.tbl n.val t).bank1) ∧
      (s.loadMayStart n.val t = false → ∃ u, exec (.tableLoadWriteStart n t) s = .next u ∧ u.loads = s.loads ∧ u.regs = s.regs)) ∧
    ∃ u, exec (.tableDomainFillComplete n t) s = .next u ∧ u.regs = s.regs ∧
      (u.tbl n.val t).fillDue = (match (s.tbl n.val t).fillDue with
        | some x => if reached (s.nowL n.val) x then none else some x
        | none => none)

/-- Scrubber, repairs, refreshes, remaps, tracker (R130 to R136, R285). -/
def Obligations.ScrubbingAndRefreshes : Prop :=
  ∀ (s : State) (n : Lane) (t : Tbl),
    let m := s.tbl n.val t
    let b := s.actBank n.val t
    let die := dieOfLine n.val
    (m.powered = true → m.fillDue = none → s.rd PWR.STATE < 2 →
      (∀ ups, ∃ u, exec (.scrubRead n t ups) s = .next u ∧ (u.tbl n.val t).scrub = (m.scrub + 1) % t.size ∧
        (u.tbl n.val t).bank0 = m.bank0 ∧ (u.tbl n.val t).bank1 = m.bank1 ∧ u.actBank n.val t = b) ∧
      (∀ u0, m.upsets = [u0] → u0.bank = b → u0.addr = m.scrub → s.replUsable n.val t u0.repl = true →
        m.scrub + 1 < t.size →
        (s.readRepl n.val t b u0.repl u0.addr = .bad → m.poisoned b u0.repl u0.addr = false →
          ∃ u, exec (.scrubRead n t []) s = .next u ∧ (b, u0.repl, u0.addr) ∈ (u.tbl n.val t).poison ∧
            u.rd (CTX.POISON_CNT n.val) = (s.rd (CTX.POISON_CNT n.val) + 1) % 2 ^ 32 ∧
            u.rd (CTX.UNCORR_EVENTS n.val) = (s.rd (CTX.UNCORR_EVENTS n.val) + 1) % 2 ^ 32 ∧
            (u.tbl n.val t).needActive.isSome = true) ∧
        (∀ v, s.readRepl n.val t b u0.repl u0.addr = .corrected v →
          (s.track.getD n.val ⟨[], [], []⟩).seen.contains (trackKey t b u0.repl u0.addr) = false →
          ∃ u, exec (.scrubRead n t []) s = .next u ∧ u.rd (CTX.CORR_EVENTS n.val) = (s.rd (CTX.CORR_EVENTS n.val) + 1) % 2 ^ 32))) ∧
    (m.powered = false ∨ 2 ≤ s.rd PWR.STATE → ∀ ups, ∃ u, exec (.scrubRead n t ups) s = .next u ∧ u.tbl n.val t = m ∧ u.regs = s.regs) ∧
    (∀ t0, m.needActive = some t0 →
      (64 ≤ s.sinceL n.val t0 → s.repairWaits n.val t = false → ∃ u, exec (.refreshStart n t) s = .next u ∧
        ((u.tbl n.val t).write.map fun w => (w.origin, w.set, w.stamp)) = some (.refresh, s.masterSet n.val t, m.active) ∧
        u.shadow n.val t = 1 ∧ (u.tbl n.val t).active = m.active) ∧
      (s.sinceL n.val t0 < 64 ∨ s.repairWaits n.val t = true → ∃ u, exec (.refreshStart n t) s = .next u ∧
        u.tbl n.val t = m ∧ u.regs = s.regs)) ∧
    (∀ t0, m.needShadow = some t0 → 64 ≤ s.sinceL n.val t0 → s.repairWaits n.val t = false → s.shadow n.val t = 0 →
      ∃ u, exec (.shadowRepairStart n t) s = .next u ∧
        ((u.tbl n.val t).write.map fun w => (w.origin, w.set)) = some (.repair, s.masterSet n.val t) ∧ u.shadow n.val t = 1) ∧
    (m.needActive = none → m.needShadow = none →
      (∃ u, exec (.refreshStart n t) s = .next u ∧ u.tbl n.val t = m ∧ u.regs = s.regs) ∧
      ∃ u, exec (.shadowRepairStart n t) s = .next u ∧ u.tbl n.val t = m ∧ u.regs = s.regs) ∧
    (m.armed = some .refresh → s.dueAt die m.armedDue = true → s.swapFree t.kind n.val (s.nowL n.val) 4 = true →
      s.otherCommitNow n.val t = false → s.dueBefore .refresh = false →
      ∃ u, exec (.refreshSwap n t) s = .next u ∧ u.actBank n.val t = 1 - b ∧ (u.tbl n.val t).active = m.shadow ∧
        (u.tbl n.val t).armed = none ∧ u.rd (CTX.REFRESH_CNT n.val) = (s.rd (CTX.REFRESH_CNT n.val) + 1) % 2 ^ 32 ∧
        u.lastSwap t.kind n.val = some (s.nowL n.val)) ∧
    (m.armed ≠ some .refresh ∨ s.dueBefore .refresh = true ∨ s.otherCommitNow n.val t = true →
      ∃ u, exec (.refreshSwap n t) s = .next u ∧ u.tbl n.val t = m ∧ u.regs = s.regs) ∧
    (m.armed = some .zero → s.dueAt die m.armedDue = true → (s.rxL n.val).relinkT = none → s.dueBefore .refresh = false →
      ∃ u, exec (.zeroSetSwap n t) s = .next u ∧
      u.actBank n.val t = 1 - b ∧ (u.tbl n.val t).active = ⟨0, s.nowL n.val, 0x8000, none⟩ ∧
      (u.tbl n.val t).window = some (s.later die 16)) ∧
    (m.armed ≠ some .zero ∨ s.dueBefore .refresh = true → ∃ u, exec (.zeroSetSwap n t) s = .next u ∧ u.tbl n.val t = m ∧ u.regs = s.regs) ∧
    (∃ u, exec (.remapActivation n) s = .next u ∧ u.regs = s.regs ∧
      (s.dueBefore .remap = true → (u.tbl n.val t).newRemaps = m.newRemaps) ∧
      (s.dueBefore .remap = false →
        (∀ x ∈ m.newRemaps, s.dueAt die x.2 = true ∧
          (let w := s.rd (CTX.REMAP n.val x.1)
           readWord (m.row (w / 2 ^ 29 % 2) (w / 2 ^ 22 % 128) (w / 2 ^ 20 % 4)) ≠ .bad)) →
        (u.tbl n.val t).newRemaps = []) ∧
      (s.dueBefore .remap = false → (∀ x ∈ m.newRemaps, s.dueAt die x.2 = false) → (u.tbl n.val t).newRemaps = m.newRemaps)) ∧
    ∀ (k : Fin 16) (t0 : Nat), (s.track.getD n.val ⟨[], [], []⟩).watch.getD k.val none = some t0 →
      (s.rd (CTX.TRACK n.val k.val) / 2 ^ 29 % 8 = 6 → 4096 ≤ s.sinceL n.val t0 →
        ∃ u, exec (.trackerWatchExpiry n k) s = .next u ∧ u.rd (CTX.TRACK n.val k.val) = 0) ∧
      (s.sinceL n.val t0 < 4096 → ∃ u, exec (.trackerWatchExpiry n k) s = .next u ∧ u.track = s.track ∧ u.regs = s.regs)

/-- Master copies (R123, R133, R223). -/
def Obligations.MasterCopiesFollow : Prop :=
  ∀ (s : State),
    (∀ (kind : Fin 8) (tgt : Chan),
      let k := kind.val + 1
      let tc := pubTarget tgt.val
      (∀ p, s.findSwapped k tc = some p → s.rd (JNR.STATE p.die) < 3 → (tc < 8 ∨ k = 8) → 2 * p.words.length ≤ (masterArea k tc).2 →
        ∃ u, exec (.masterCopyUpdate kind tgt) s = .next u ∧ u.findSwapped k tc = none ∧
          (∀ i < p.words.length, dmHalf (u.jn p.die).dm ((masterArea k tc).1 + 2 * i) = p.words.getD i 0 % 65536) ∧
          u.masterStamp p.die k tc = (p.epoch % 2 ^ 48, p.temp % 65536) ∧
          (∀ t, tblOfKind k = some t → (u.tbl tc t).window = none)) ∧
      (∀ t, s.findSwapped k tc = none → tblOfKind k = some t → (s.tbl tc t).window.isSome = true → tc < 8 →
        ∃ u, exec (.masterCopyUpdate kind tgt) s = .next u ∧ (u.tbl tc t).window = none ∧
          u.masterStamp (s.servJ (dieOfLine tc)) k tc = ((s.tbl tc t).active.epoch % 2 ^ 48, (s.tbl tc t).active.temp % 65536)) ∧
      (s.findSwapped k tc = none → (∀ t, tblOfKind k = some t → (s.tbl tc t).window = none) →
        ∃ u, exec (.masterCopyUpdate kind tgt) s = .next u ∧ u.pubs = s.pubs ∧ u.joiners = s.joiners ∧ u.regs = s.regs)) ∧
    ∀ (n : Lane) (t : Tbl) (addr : BitVec 12),
      let a := addr.toNat % t.size
      ((s.tbl n.val t).window.isSome = true → exec (.masterCopyCheckFail n t addr) s = .next s.drive) ∧
      (∀ v, (s.tbl n.val t).window = none → s.goodEntry n.val t a = some v → ∃ u, exec (.masterCopyCheckFail n t addr) s = .next u ∧
        u.masterEntry t.kind n.val a = v % 65536 ∧ u.regs = s.regs ∧ (u.tbl n.val t).masterBad = (s.tbl n.val t).masterBad) ∧
      ((s.tbl n.val t).window = none → s.goodEntry n.val t a = none → ∃ u, exec (.masterCopyCheckFail n t addr) s = .next u ∧
        a ∈ (u.tbl n.val t).masterBad ∧ u.joiners = s.joiners ∧ u.regs = s.regs)

/-! ### Live writes, commits, lanes and units taking effect -/

namespace Sys2Proof.Spec

open Sys2Proof.Machine

/-- The command completes and leaves the state as it is; the open-drain outputs follow their causes. -/
def Ignores (c : Instr) (s : State) : Prop := exec c s = .next s.drive

/-- Fields whose write is an action (Table 0-8 class L, reading 0). -/
def actionFields : List Nat :=
  [HK.SEQ_GO, HK.RING_MARK_SET, HK.WIN_CLR, BDAC.RELEASE, BDAC.SC_CLR, RST.CAUSE_CLR, OBS.IRQ_CLR, OBS.LANE_CHG_CLR,
    OBS.FAULT_CLR, OBS.CAP_MARK_SET, OBS.HIST_GO, fld 0x60 1 0x0102, fld 0x60 0 0x0013]

/-- Everything but the parameter fields and the commit domains, with no live write waiting. -/
def OnlyFieldsAndDomains (s t : State) : Prop :=
  ∃ r ds, t = ({ s with regs := r, doms := ds, live := [] } : State).drive

/-- A final reply stands last in the queue of its transport. -/
def LastReply (t : State) (r : ReqRef) (st : Status) (b : Body) : Prop :=
  (t.trans r.via).replies.getLast? = some ⟨r, st, t.tickno % 65536, b, true⟩

end Sys2Proof.Spec

/-- LIVE_WRITE_EFFECT, COMMIT_ARM and COMMIT_SWAP. -/
def Obligations.LiveWritesAndCommitsTakeEffect : Prop :=
  (∀ s : State,
    (s.dueBefore .live = true → Ignores .liveWriteEffect s) ∧
    (s.dueBefore .live = false → ∃ t, exec .liveWriteEffect s = .next t ∧ t.live = s.live.filter (fun w => !s.liveDue w) ∧
      t.tickno = s.tickno) ∧
    ∀ w, s.live = [w] → s.dueBefore .live = false → s.dueAt (dieOfAddr w.addr) w.due = true →
      (w.addr ∉ actionFields → isLtxSquelch w.addr = false → isHtxSquelch w.addr = false →
        ∃ t, exec .liveWriteEffect s = .next t ∧ OnlyFieldsAndDomains s t ∧
          t.rd w.addr = w.value % 2 ^ fieldWidth w.addr ∧ (∀ a, a ≠ w.addr → t.rd a = s.rd a) ∧
          (t.dom (s.domOfAddr w.addr)).staged =
            (s.dom (s.domOfAddr w.addr)).staged.map (fun x => if x.1 = w.addr then (w.addr, w.value) else x)) ∧
      (w.addr = OBS.IRQ_CLR → ∃ t, exec .liveWriteEffect s = .next t ∧ OnlyFieldsAndDomains s t ∧
        (∀ i < 4, t.bit OBS.IRQ_STAT i = (s.bit OBS.IRQ_STAT i && !(w.value.testBit i && (i == 1 || i == 3)))) ∧
        ∀ a, a ≠ OBS.IRQ_STAT → t.rd a = s.rd a) ∧
      ∀ n : Lane, w.addr = LTX.SQUELCH n.val → w.value = 1 → s.rd (LTX.SQUELCH n.val) = 0 → s.rd (LTX.STATE n.val) = 2 →
        ∃ t, exec .liveWriteEffect s = .next t ∧ t.rd (LTX.SQUELCH n.val) = 1 ∧ t.rd (LTX.STATE n.val) = 3 ∧
          t.bit (LTX.FLAGS n.val) 0 = true ∧ (t.txL n.val).gated = true ∧ t.bit OBS.LANE_CHG n.val = true ∧
          t.rd (LTX.SQUELCH_CNT n.val) = (s.rd (LTX.SQUELCH_CNT n.val) + 1) % 2 ^ fieldWidth (LTX.SQUELCH_CNT n.val) ∧
          t.rx = s.rx ∧ t.host = s.host) ∧
  (∀ (d : Die) (ready1 : Bool) (s : State),
    ((s.dom d.val).commit = none → Ignores (.commitArm d ready1) s) ∧
    ∀ c, (s.dom d.val).commit = some c →
      (c.armed = true ∨ reached (addTicks s.tickno 1) c.target = false → Ignores (.commitArm d ready1) s) ∧
      (c.armed = false → reached (addTicks s.tickno 1) c.target = true →
        (s.split = true ∨ (ready1 = true ∧ s.sys.bridgeLost = false) → ∃ t, exec (.commitArm d ready1) s = .next t ∧
          (t.dom d.val).commit = some { c with armed := true } ∧ (t.dom d.val).staged = (s.dom d.val).staged ∧
          t.regs = s.regs ∧ KeepsRequests s t) ∧
        (s.split = false → (ready1 = false ∨ s.sys.bridgeLost = true) → ∃ t, exec (.commitArm d ready1) s = .next t ∧
          (t.dom d.val).commit = none ∧ LastReply t c.ref .hwFault (.err "BRIDGE" 0xFFFFFFFF 0) ∧
          (t.dom d.val).staged = (s.dom d.val).staged ∧ t.rx = s.rx ∧ t.tx = s.tx ∧ t.ctxT = s.ctxT ∧ t.shpT = s.shpT ∧
          ∀ a, a ≠ OBS.IRQ_STAT → (∀ n, a ≠ CTX.SHADOW_STATE n) → t.rd a = s.rd a))) ∧
  ∀ (d : Die) (s : State),
    ((s.dom d.val).commit = none → Ignores (.commitSwap d) s) ∧
    ∀ c, (s.dom d.val).commit = some c →
      (c.armed = false ∨ s.dueAt d.val c.target = false → Ignores (.commitSwap d) s) ∧
      (c.armed = true → s.dueAt d.val c.target = true →
        (∃ t, exec (.commitSwap d) s = .next t ∧ (t.dom d.val).commit = none ∧ t.tickno = s.tickno ∧
          (t.dom d.val).last = some (s.now d.val, c.tables.map fun x => (x.kind, x.inst)) ∧
          LastReply t c.ref .ok (.data (le 8 s.tickno ++ le 4 (t.cfgGen d.val) ++ le 2 c.frozen.length ++
            [byteOf c.tables.length, 0])) ∧
          ∀ p, s.findPub p.kind p.tgt = some p → c.touches p.tgt = true → t.findPub p.kind p.tgt = none) ∧
        (c.frozen = [] → c.tables = [] → c.bundle = none → ∃ t, exec (.commitSwap d) s = .next t ∧
          t.cfgGen d.val = (s.cfgGen d.val + 1) % 2 ^ 32 ∧ t.rx = s.rx ∧ t.tx = s.tx ∧ t.host = s.host ∧ t.ctxT = s.ctxT ∧
          ∀ a, a ≠ OBS.IRQ_STAT → a ≠ DEV.CFG_GEN0 → a ≠ DEV.CFG_GEN1 → t.rd a = s.rd a) ∧
        (∀ a v, c.frozen = [(a, v)] → c.tables = [] → c.bundle = none → fieldCls a = some .s →
          blkOf a ∉ [0x10, 0x40, 0x41, 0x60, 0x70] → ∃ t, exec (.commitSwap d) s = .next t ∧ t.rd a = v % 2 ^ fieldWidth a) ∧
        (∀ (n : Lane) (x : TableSet), c.frozen = [] → c.tables = [x] → c.bundle = none → x.kind = 1 → x.inst = n.val →
          ∃ t, exec (.commitSwap d) s = .next t ∧ t.actBank n.val .ctx = 1 - s.actBank n.val .ctx ∧
            (t.tbl n.val .ctx).active = (s.tbl n.val .ctx).shadow ∧
            (t.tbl n.val .ctx).window = some (s.later (dieOfLine n.val) 64) ∧ t.bit (CTX.FLAGS n.val) 0 = false ∧
            t.bit (CTX.FLAGS n.val) 5 = true ∧ t.shadow n.val .ctx = 0 ∧ t.lastSwap 1 n.val = some (s.nowL n.val)) ∧
        ∀ (n : Lane) (x : TableSet), c.frozen = [] → c.tables = [x] → c.bundle = none → x.kind = 9 → x.inst = n.val →
          ∃ t, exec (.commitSwap d) s = .next t ∧ (t.rxL n.val).gain = wordsOf x.words ∧ x ∈ t.mgmt ∧
            (∀ y ∈ t.mgmt, y.kind = 9 → y.inst = n.val → y = x) ∧ t.tx = s.tx ∧ t.host = s.host ∧ t.ctxT = s.ctxT)

/-- Lanes and units taking effect. -/
def Obligations.LanesAndUnitsTakeEffect : Prop :=
  (∀ s : State,
    ((∀ q ∈ s.lanes, q.up = true → s.laneDue q = false) → Ignores .laneUpEffect s) ∧
    ((∀ q ∈ s.lanes, q.up = false → s.laneDue q = false) → s.sys.power.shutdown = none → Ignores .laneDownEffect s) ∧
    ∀ q, s.lanes = [q] → s.laneDue q = true →
      (∀ n : Lane, q.line = 2 ^ n.val → q.host = 0 →
        (q.up = true → s.lineUp n.val = false → s.sys.lanesIdle = false → s.regionStarted (regionOfLine n.val) = true →
          ∃ t, exec .laneUpEffect s = .next t ∧ t.lanes = [⟨true, q.line, 0, addTicks s.tickno 1, none⟩] ∧ t.regs = s.regs ∧
            t.rx = s.rx ∧ t.tx = s.tx) ∧
        (q.up = true → s.lineUp n.val = false → s.sys.lanesIdle = false → s.regionStarted (regionOfLine n.val) = false →
          ∃ t, exec .laneUpEffect s = .next t ∧ t.lanes = [] ∧
          (8 ≤ s.rd (FEC.SCHED_SERVED n.val) → (t.rxL n.val).step = 1 ∧ t.rd (LRX.STATE n.val) = 0) ∧
          (s.rd (FEC.SCHED_SERVED n.val) < 8 → t.rd (LRX.STATE n.val) = 5) ∧
          (t.txL n.val).step = 1 ∧ (t.rxL n.val).bringT = s.nowL n.val ∧ (∀ i < 3, t.rd (PWR.DOM_STATE (3 * n.val + i)) = 1) ∧
          (t.tbl n.val .ctx).powered = true ∧ (t.tbl n.val .shp).powered = true ∧
          ∀ r, q.ref = some r → LastReply t r .ok (.data (le 8 s.tickno ++ le 2 (2 ^ n.val) ++ le 2 0))) ∧
        (q.up = false → s.lineUp n.val = true → s.sys.power.shutdown = none → ∃ t, exec .laneDownEffect s = .next t ∧
          t.lanes = [] ∧ t.rd (LRX.STATE n.val) = 0 ∧ t.rd (LTX.STATE n.val) = 0 ∧ t.rd (FEC.FRAME_STATE n.val) = 0 ∧
          (t.rxL n.val).step = 0 ∧ (t.txL n.val).step = 0 ∧ (t.txL n.val).gated = true ∧
          (∀ i < 3, t.rd (PWR.DOM_STATE (3 * n.val + i)) = 0) ∧
          ∀ r, q.ref = some r → LastReply t r .ok (.data (le 8 s.tickno ++ le 2 (2 ^ n.val) ++ le 2 0)))) ∧
      ∀ k : HostLane, q.line = 0 → q.host = 2 ^ k.val →
        (q.up = true → s.hostUp k.val = false → s.sys.lanesIdle = false → s.regionStarted (regionOfHost k.val) = true →
          ∃ t, exec .laneUpEffect s = .next t ∧ t.lanes = [⟨true, 0, q.host, addTicks s.tickno 1, none⟩] ∧ t.regs = s.regs ∧
            t.host = s.host) ∧
        (q.up = true → s.hostUp k.val = false → s.sys.lanesIdle = false → s.regionStarted (regionOfHost k.val) = false →
          ∃ t, exec .laneUpEffect s = .next t ∧ t.lanes = [] ∧
          (t.hostL k.val).step = 1 ∧ (t.hostL k.val).bringT = s.nowH k.val ∧ t.rd (PWR.DOM_STATE (40 + k.val)) = 1 ∧
          t.rx = s.rx ∧ ∀ r, q.ref = some r → LastReply t r .ok (.data (le 8 s.tickno ++ le 2 0 ++ le 2 (2 ^ k.val)))) ∧
        (q.up = false → s.hostUp k.val = true → s.sys.power.shutdown = none → ∃ t, exec .laneDownEffect s = .next t ∧
          t.lanes = [] ∧ t.rd (HRX.STATE k.val) = 0 ∧ t.rd (HRX.FLAGS k.val) = 0 ∧ t.rd (HTX.FLAGS k.val) = 0 ∧
          (t.hostL k.val).step = 0 ∧ t.rd (PWR.DOM_STATE (40 + k.val)) = 0 ∧ t.rx = s.rx ∧
          ∀ r, q.ref = some r → LastReply t r .ok (.data (le 8 s.tickno ++ le 2 0 ++ le 2 (2 ^ k.val))))) ∧
  ∀ s : State,
    (s.unit = none → Ignores .unitCommitArm s ∧ Ignores .unitCommitSwap s) ∧
    ∀ u, s.unit = some u →
      (u.armed = true ∨ s.mcServes = false ∨ reached (addTicks s.tickno 1) u.target = false → Ignores .unitCommitArm s) ∧
      (s.unitDue = false ∨ s.dueBefore .unit = true → Ignores .unitCommitSwap s) ∧
      ∀ (n : Lane) (x : Retirement), u.items = [x] → x.lane = n.val → x.index < 66 → x.refused = none →
        (u.armed = false → s.mcServes = true → reached (addTicks s.tickno 1) u.target = true → x.kind = .ctxReplica →
          s.replServes n.val .ctx x.index = true →
          (∀ sp rest, s.readySpares n.val .ctx = sp :: rest →
            (s.ctxRules n.val .ctx (some sp) = none → ∃ t, exec .unitCommitArm s = .next t ∧
              t.unit = some { u with armed := true, items := [{ x with spare := some sp }] } ∧ t.regs = s.regs) ∧
            ∀ nm, s.ctxRules n.val .ctx (some sp) = some nm → ∃ t, exec .unitCommitArm s = .next t ∧
              t.unit = some { u with armed := true, items := [] } ∧
              ∀ r, x.ref = some r → LastReply t r .conflict (.err nm x.index 0)) ∧
          (s.readySpares n.val .ctx = [] → ∃ t, exec .unitCommitArm s = .next t ∧
            t.unit = some { u with armed := true, items := [] } ∧ t.bit (CTX.FLAGS n.val) 2 = true ∧
            x.index ∈ (t.tbl n.val .ctx).wanted ∧
            ∀ r, x.ref = some r → LastReply t r .precondition (.err "NO_SPARE" x.index 0))) ∧
        (u.armed = true → s.mcServes = true → s.dueAt (dieOfLine n.val) u.target = true → s.dueBefore .unit = false →
          ∀ sp < 66, x.spare = some sp →
          (x.kind = .ctxReplica → s.ctxRules n.val .ctx (some sp) = none → ∃ t, exec .unitCommitSwap s = .next t ∧
            (∀ l < 64, t.physRepl n.val .ctx l =
              if s.physRepl n.val .ctx l = x.index then sp else s.physRepl n.val .ctx l) ∧
            t.replUsable n.val .ctx x.index = false ∧ t.bit RST.FLAGS 5 = true ∧
            t.rd (CTX.RETIRE_CNT n.val) = (s.rd (CTX.RETIRE_CNT n.val) + 1) % 2 ^ fieldWidth (CTX.RETIRE_CNT n.val) ∧
            ∀ r, x.ref = some r → LastReply t r .ok (.data (le 8 s.tickno ++ [byteOf sp]))) ∧
          (x.kind = .ctxReplica → ∀ nm, s.ctxRules n.val .ctx (some sp) = some nm → ∃ t, exec .unitCommitSwap s = .next t ∧
            (∀ l < 64, t.physRepl n.val .ctx l = s.physRepl n.val .ctx l) ∧
            ∀ r, x.ref = some r → LastReply t r .conflict (.err nm x.index 0)) ∧
          (x.kind = .slice → ∃ t, exec .unitCommitSwap s = .next t ∧
            (∀ p < 64, t.rd (LRX.SLICE_MAP n.val p) =
              if s.rd (LRX.SLICE_MAP n.val p) = x.index then sp else s.rd (LRX.SLICE_MAP n.val p)) ∧
            t.bit66 (sliceHealth n.val) x.index = false ∧ (t.rxL n.val).sliceCycle = s.nowL n.val ∧
            ∀ r, x.ref = some r → LastReply t r .ok (.data (le 8 s.tickno ++ [byteOf sp]))))

/-! ### Domains, PLLs, the bridge, the reference clock -/

/-- Power domains leaving reset and region PLLs (R44, R45). -/
def Obligations.DomainsAndRegionPlls : Prop :=
  (∀ (dom : Fin 96) (s : State),
    let i := dom.val
    let inReset := s.sys.resetting.contains i = true ∧ s.rd (PWR.DOM_STATE i) = 1
    (¬ (inReset ∧ s.domLocked i = true) → Ignores (.domainResetRelease dom) s) ∧
    (inReset → s.domLocked i = true → ∃ t, exec (.domainResetRelease dom) s = .next t ∧ t.sys.resetting.contains i = false ∧
      t.rd (PWR.DOM_STATE i) = 1 ∧
      (∀ n : Lane, i = 3 * n.val + 2 → (s.txL n.val).step = 1 → s.rd (LTX.SUBDAC_HEALTH n.val) = 15 →
        s.bit DEV.TXSENSE_FAIL n.val = false → t.rd (LTX.STATE n.val) = 1 ∧ t.rd (PWR.CLK_STATE (8 + n.val)) = 1 ∧
        (t.txL n.val).step = if s.bit (s.txCalAddr n.val) n.val then 3 else 2) ∧
      (∀ n : Lane, i = 3 * n.val → (s.rxL n.val).step = 1 → s.domReady (3 * n.val + 1) = true →
        (s.bit (s.rxCalAddr n.val) n.val = true → t.rd (LRX.STATE n.val) = 2 ∧ (t.rxL n.val).step = 3) ∧
        (s.bit (s.rxCalAddr n.val) n.val = false → t.rd (LRX.STATE n.val) = 1 ∧ (t.rxL n.val).step = 2 ∧
          (t.rxL n.val).calT = s.nowL n.val)) ∧
      ∀ k : HostLane, i = 40 + k.val → (s.hostL k.val).step = 1 → t.rd (HRX.STATE k.val) = 1 ∧ (t.hostL k.val).step = 2) ∧
    (¬ (inReset ∧ s.domLocked i = false) → Ignores (.domainLockTimeout dom) s) ∧
    (inReset → s.domLocked i = false → ∃ t, exec (.domainLockTimeout dom) s = .next t ∧ t.rd (PWR.DOM_STATE i) = 3 ∧
      t.bit OBS.FAULT_STAT 5 = true ∧ t.sys.resetting.contains i = false) ∧
    (¬ inReset → Ignores (.domainSupplyTimeout dom) s) ∧
    (inReset → ∃ t, exec (.domainSupplyTimeout dom) s = .next t ∧ t.rd (PWR.DOM_STATE i) = 3 ∧
      t.bit OBS.FAULT_STAT 5 = true ∧ t.sys.resetting.contains i = false)) ∧
  ∀ (r : Region) (host : Bool) (s : State),
    let p := 2 * r.val + host.toNat
    let q := s.pll p
    (¬ (s.rd PWR.STATE < 2 ∧ q.locked = true) → Ignores (.regionPllLockLoss r host) s) ∧
    (s.rd PWR.STATE < 2 → q.locked = true → ∃ t, exec (.regionPllLockLoss r host) s = .next t ∧
      t.pll p = { Pll.reset with lost := true, relocking := true } ∧ t.ctxT = s.ctxT ∧ t.shpT = s.shpT ∧ t.doms = s.doms ∧
      (∀ n : Lane, regionOfLine n.val = r.val →
        (s.rd (LRX.STATE n.val) = 3 → t.rd (LRX.STATE n.val) = 4 ∧ (t.rxL n.val).holdPll = true) ∧
        (s.rd (LTX.STATE n.val) = 2 → t.rd (LTX.STATE n.val) = 4 ∧ (t.txL n.val).pllLost = true ∧ (t.txL n.val).gated = true)) ∧
      ∀ k : HostLane, regionOfHost k.val = r.val → s.rd (HRX.STATE k.val) = 4 →
        t.rd (HRX.STATE k.val) = 5 ∧ (t.hostL k.val).holdPll = true) ∧
    (q.relocking = false → Ignores (.regionPllRelock r host) s) ∧
    (q.relocking = true → ∃ t, exec (.regionPllRelock r host) s = .next t ∧ t.pll p = { Pll.reset with locked := true } ∧
      ((s.pll (2 * r.val + (!host).toNat)).locked = false → t.rx = s.rx ∧ t.tx = s.tx ∧ t.host = s.host) ∧
      ((s.pll (2 * r.val + (!host).toNat)).locked = true → (∀ n : Lane, regionOfLine n.val = r.val →
        (s.rd (LRX.STATE n.val) = 4 → (s.rxL n.val).holdPll = true → (s.rxL n.val).calMeth ≠ 4 → (s.rxL n.val).holdLos = false →
          (s.rxL n.val).holdLol = false → s.sys.lanesIdle = false →
          (s.bit (LRX.FLAGS n.val) 0 = false → (s.rd (LRX.AUTO_RELINK n.val) = 1 ∨ (s.rxL n.val).holdGo = true) →
            t.rd (LRX.STATE n.val) = 2 ∧ (t.rxL n.val).relinkT = some (s.nowL n.val)) ∧
          (s.bit (LRX.FLAGS n.val) 0 = true ∨ (s.rd (LRX.AUTO_RELINK n.val) ≠ 1 ∧ (s.rxL n.val).holdGo = false) →
            t.rd (LRX.STATE n.val) = 4)) ∧
        (s.rd (LTX.STATE n.val) = 4 → (s.txL n.val).pllLost = true → (t.txL n.val).step = 1 ∧ (t.txL n.val).pllLost = false ∧
          t.sys.resetting.contains (3 * n.val + 2) = true)) ∧
      ∀ k : HostLane, regionOfHost k.val = r.val → (t.hostL k.val).holdPll = false)) ∧
    (q.lost = false ∨ q.relocking = false ∨ q.waiting = true → Ignores (.relockTimeout r host) s) ∧
    (q.lost = true → q.relocking = true → q.waiting = false → ∃ t, exec (.relockTimeout r host) s = .next t ∧
      t.rd (PWR.REFUSE_CNT (0x10 + p)) = (s.rd (PWR.REFUSE_CNT (0x10 + p)) + 1) % 2 ^ fieldWidth (PWR.REFUSE_CNT (0x10 + p)) ∧
      (q.tries < s.rd PWR.WAKE_RETRIES →
        t.pll p = { q with tries := q.tries + 1, relocking := false, waiting := true } ∧ KeepsPath s t) ∧
      (s.rd PWR.WAKE_RETRIES ≤ q.tries → t.pll p = { q with relocking := false, failed := true } ∧
        t.rd (PWR.DOM_STATE (76 + r.val)) = 3 ∧ t.bit OBS.FAULT_STAT 5 = true ∧
        (∀ n : Lane, regionOfLine n.val = r.val →
          t.rd (LRX.STATE n.val) = 5 ∧ t.rd (LTX.STATE n.val) = 4 ∧ (t.txL n.val).gated = true) ∧
        ∀ k : HostLane, regionOfHost k.val = r.val → t.rd (HRX.STATE k.val) = 6)) ∧
    ∃ t, exec (.relockRetry r host) s = .next t ∧ KeepsPath s t ∧ t.regs = s.regs ∧
      t.pll p = if q.waiting then { q with waiting := false, relocking := true } else q

/-- The die-to-die bridge and the reference clock. -/
def Obligations.BridgeAndReferenceClock : Prop :=
  ∀ s : State,
    (s.sys.bridgeLost = true → Ignores .bridgeLoss s) ∧
    (s.sys.bridgeLost = false → ∃ t, exec .bridgeLoss s = .next t ∧ t.sys.bridgeLost = true ∧ t.bit OBS.FAULT_STAT 2 = true ∧
      t.sys.pins.fault = true ∧ KeepsPath s t ∧ t.tickno = s.tickno ∧ t.tick1 = some s.tickno) ∧
    (s.sys.bridgeLost = false → Ignores .bridgeRecovery s) ∧
    (s.sys.bridgeLost = true → ∃ t, exec .bridgeRecovery s = .next t ∧ t.sys.bridgeLost = false ∧
      t.bit OBS.FAULT_STAT 2 = false ∧ t.bit OBS.FLAGS 2 = false ∧ t.die1Log = [] ∧ t.tick1 = none ∧ t.rx = s.rx ∧ t.host = s.host ∧
      ∀ e, s.die1Log = [e] → e.data = [] → s.log.length < 512 →
        ∃ x ∈ t.log, x.code = e.code ∧ x.tick = e.tick ∧ x.inst = e.inst ∧ x.detail = e.detail ∧ x.die1 = true) ∧
    (∃ t, exec .refclkLoss s = .next t ∧ t.rd (PWR.CLK_STATE 40) = 0 ∧
      (s.rd PWR.STATE < 2 → ∀ p < 8,
        ((s.pll p).locked = true → t.pll p = { Pll.reset with lost := true, relocking := true }) ∧
        ((s.pll p).locked = false → t.pll p = s.pll p)) ∧
      (2 ≤ s.rd PWR.STATE → t.sys.plls = s.sys.plls ∧ KeepsPath s t)) ∧
    ∃ t, exec .refclkReturn s = .next t ∧ t.rd (PWR.CLK_STATE 40) = 1 ∧ KeepsPath s t ∧ KeepsRequests s t ∧ KeepsLog s t ∧
      KeepsTick s t ∧ ∀ a, a ≠ PWR.CLK_STATE 40 → t.rd a = s.rd a

/-! ### Line lanes -/

/-- Line receive: signal, lock and relinks. -/
def Obligations.SignalLossAndRelinks : Prop :=
  ∀ (n : Lane) (s : State),
    let st := s.rd (LRX.STATE n.val)
    let r := s.rxL n.val
    let los := s.bit (LRX.FLAGS n.val) 0
    (st = 0 ∨ los = true ∨ r.dark < s.rd (LRX.LOS_TICKS n.val) → Ignores (.losDeclare n) s) ∧
    (st ≠ 0 → los = false → s.rd (LRX.LOS_TICKS n.val) ≤ r.dark → ∃ t, exec (.losDeclare n) s = .next t ∧
      t.bit (LRX.FLAGS n.val) 0 = true ∧ t.rd (LRX.LOS_CNT n.val) = (s.rd (LRX.LOS_CNT n.val) + 1) % 2 ^ 32 ∧
      t.tx = s.tx ∧ t.ctxT = s.ctxT ∧ t.doms = s.doms ∧
      (st = 3 ∨ st = 2 ∧ (r.relinkT.isSome = true ∨ r.tracked = true) →
        t.rd (LRX.STATE n.val) = 4 ∧ (t.rxL n.val).holdLos = true ∧ (t.rxL n.val).relinkT = none) ∧
      (st = 2 → r.relinkT = none → r.tracked = false → t.rd (LRX.STATE n.val) = 2 ∧ (t.rxL n.val).step = 3) ∧
      (st = 4 → t.rd (LRX.STATE n.val) = 4 ∧ (t.rxL n.val).holdLos = true)) ∧
    (los = false ∨ r.lit < 2 → Ignores (.losClear n) s) ∧
    (los = true → 2 ≤ r.lit → ∃ t, exec (.losClear n) s = .next t ∧ t.bit (LRX.FLAGS n.val) 0 = false ∧
      (t.rxL n.val).holdLos = false ∧
      (st = 2 → r.step = 3 → (t.rxL n.val).step = 4 ∧ (t.rxL n.val).lightT = s.nowL n.val) ∧
      (st = 4 → s.sys.lanesIdle = false → r.holdLol = false → r.holdPll = false → s.rd (LRX.AUTO_RELINK n.val) = 1 →
        t.rd (LRX.STATE n.val) = 2 ∧ (t.rxL n.val).relinkT = some (s.nowL n.val) ∧ (t.rxL n.val).step = 13 ∧
        t.rd (LRX.TR_ROW n.val) = r.gain.getD 0 0 % 8 ∧
        t.rd (LRX.RELINK_CNT n.val) = (s.rd (LRX.RELINK_CNT n.val) + 1) % 2 ^ 32)) ∧
    (let run := st = 2 ∨ st = 3
     let lol := st ≠ 0 ∧ (r.overFreq = true ∨ st = 3 ∧ 16 ≤ r.lolTicks) ∧ (run ∨ s.bit (LRX.FLAGS n.val) 1 = false) ∧
       los = false ∧ r.dark < s.rd (LRX.LOS_TICKS n.val)
     (¬ lol → Ignores (.lolDeclare n) s) ∧
     (lol → ∃ t, exec (.lolDeclare n) s = .next t ∧ t.bit (LRX.FLAGS n.val) 1 = true ∧
       t.rd (LRX.LOL_CNT n.val) = (s.rd (LRX.LOL_CNT n.val) + 1) % 2 ^ 32 ∧ t.tx = s.tx ∧ t.ctxT = s.ctxT ∧
       (run ∨ st = 4 → t.rd (LRX.STATE n.val) = 4 ∧ (t.rxL n.val).holdLol = true ∧ (t.rxL n.val).lolAt = s.nowL n.val) ∧
       (¬ run → t.rd (LRX.STATE n.val) = st))) ∧
    (let go := st = 2 ∧ r.relinkT.isSome = true
     (¬ (go ∧ r.fellBack = false) → Ignores (.relinkFallback n) s) ∧
     (go → r.fellBack = false → ∃ t, exec (.relinkFallback n) s = .next t ∧ (t.rxL n.val).fellBack = true ∧
       (t.rxL n.val).step = 14 ∧ (t.rxL n.val).consOwed = true ∧ t.rd (LRX.TR_ROW n.val) = 0 ∧ t.bit (LRX.FLAGS n.val) 6 = true ∧
       t.rd (LRX.RELINK_FALLBACK n.val) = (s.rd (LRX.RELINK_FALLBACK n.val) + 1) % 2 ^ 16 ∧
       (s.commitUses 1 n.val = false → (t.tbl n.val .ctx).write.map (fun w => (w.origin, w.set)) = some (.zero, []))) ∧
     (¬ (go ∧ r.fellBack = true) → Ignores (.relinkFailTimeout n) s) ∧
     (go → r.fellBack = true → ∃ t, exec (.relinkFailTimeout n) s = .next t ∧ t.rd (LRX.STATE n.val) = 5 ∧
       (t.rxL n.val).step = 0 ∧ (t.rxL n.val).relinkT = none ∧ t.tx = s.tx ∧ t.ctxT = s.ctxT)) ∧
    (let due := (st = 3 ∨ st = 2 ∧ (r.step = 5 ∨ r.step = 6 ∨ r.step = 14 ∨ r.step = 15)) ∧ s.dwellNow n.val ≠ 0 ∧
       s.dwellNow n.val ≤ r.dwell
     (¬ due → Ignores (.trRowAdvance n) s) ∧
     (due → ∃ t, exec (.trRowAdvance n) s = .next t ∧ t.rd (LRX.TR_ROW n.val) = min 7 (s.rd (LRX.TR_ROW n.val) + 1) ∧
       (t.rxL n.val).dwell = 0 ∧ (t.rxL n.val).step = r.step + (if t.dwellNow n.val = 0 ∧ (r.step = 5 ∨ r.step = 14) then 1 else 0) ∧
       ∀ a, a ≠ LRX.TR_ROW n.val → t.rd a = s.rd a)) ∧
    (¬ (st = 2 ∧ 64 ≤ r.goodTicks) → Ignores (.trackEntry n) s) ∧
    (st = 2 → 64 ≤ r.goodTicks → ∃ t, exec (.trackEntry n) s = .next t ∧ t.rd (LRX.STATE n.val) = 3 ∧
      t.bit (LRX.FLAGS n.val) 1 = false ∧ (t.rxL n.val).tracked = true ∧ (t.rxL n.val).relinkT = none ∧
      (t.rxL n.val).step = 0 ∧ t.bit OBS.LANE_CHG n.val = true ∧ t.tx = s.tx ∧ t.ctxT = s.ctxT ∧
      ∀ k ∈ pairOf n.val, (t.hostL k).lineSeen = true)

/-- Calibration and bring-up of a line lane. -/
def Obligations.LineCalibrationAndBringUp : Prop :=
  ∀ (n : Lane) (pd : BitVec 12) (lit : Bool) (s : State),
    let st := s.rd (LRX.STATE n.val)
    let r := s.rxL n.val
    let x := s.txL n.val
    let calUp := fun (t : State) (bad : Bool) => t.bit (LRX.FLAGS n.val) 2 = bad ∧
      (bad = false → t.bit (s.rxCalAddr n.val) n.val = true) ∧
      (bad = true → t.rd DEV.CAL_DEG_CNT = (s.rd DEV.CAL_DEG_CNT + 1) % 2 ^ 32)
    (let dark := 4 ≤ r.black ∧ s.darkReading n.val pd.toNat = true
     (¬ (st = 1 ∧ r.calMeth = 0 ∧ 4 ≤ s.sinceL n.val r.calT) → Ignores (.darkCheckDone n pd) s) ∧
     (st = 1 → r.calMeth = 0 → 4 ≤ s.sinceL n.val r.calT → ∃ t, exec (.darkCheckDone n pd) s = .next t ∧
       (dark → (t.rxL n.val).calMeth = if s.bit DEV.CALSRC_FAIL n.val then 3 else 1) ∧
       (¬ dark → (t.rxL n.val).calMeth = 2 ∧ t.rd DEV.CAL_BG_CNT = (s.rd DEV.CAL_BG_CNT + 1) % 2 ^ 32) ∧
       t.tx = s.tx ∧ t.ctxT = s.ctxT ∧ ∀ a, a ≠ DEV.CAL_BG_CNT → t.rd a = s.rd a)) ∧
    (∀ first again : List SliceMeas,
      (¬ (WellFormed.slices first = true ∧ WellFormed.slices again = true) →
        exec (.rxCalComplete n first again lit) s = .refused (.illFormed "RX_CAL_COMPLETE")) ∧
      (WellFormed.slices first = true → WellFormed.slices again = true →
        let c := s.rxCal n.val r.calMeth first again
        (st = 1 → (r.calMeth = 1 ∨ r.calMeth = 2) → ¬ (r.calMeth = 1 ∧ c.degraded = true ∧ lit = true) →
          ∃ t, exec (.rxCalComplete n first again lit) s = .next t ∧
            t.rd (LRX.CAL_METHOD n.val) = r.calMeth ∧ t.rd (LRX.STATE n.val) = 2 ∧ (t.rxL n.val).step = 3 ∧
            calUp t c.degraded ∧ t.tx = s.tx ∧ t.ctxT = s.ctxT ∧
            (c.degraded = true → s.bit DEV.CALSRC_FAIL n.val = true → (t.rxL n.val).slices = r.slices) ∧
            (c.degraded = false ∨ s.bit DEV.CALSRC_FAIL n.val = false → (t.rxL n.val).slices = c.words ∧
              (r.calMeth = 1 → ∀ i < 66, ∀ m, first[i]? = some m → (darkFit m).sliceOk = true →
                let w := (t.rxL n.val).slices.getD i 0
                sgn 8 (bits w 31 24) = roundDiv (4 * m.mean) (2 ^ 20) ∧ sgn 7 (bits w 13 7) = roundDiv (-m.late) 20 ∧
                (m.minus < m.plus → (bits w 23 14 : Int) = roundDiv (512 * 96 * 2 ^ 20) (m.plus - m.minus)))) ∧
            (s.unit = none → s.mcServes = true → ∀ i ∈ c.failed, ∃ u, t.unit = some u ∧
              (⟨.slice, n.val, i, none, none, none⟩ : Retirement) ∈ u.items)) ∧
        (st = 1 → r.calMeth = 1 → c.degraded = true → lit = true → ∃ t, exec (.rxCalComplete n first again lit) s = .next t ∧
          (t.rxL n.val).calMeth = 2 ∧ (t.rxL n.val).slices = r.slices ∧ t.rd (LRX.STATE n.val) = 1) ∧
        (st = 3 → r.bgCal.isSome = true → ∃ t, exec (.rxCalComplete n first again lit) s = .next t ∧
          (t.rxL n.val).slices = r.slices ∧ (t.rxL n.val).recipe.meas = again ∧ t.rd (LRX.STATE n.val) = 3 ∧
          let near := (s.modRecipe n.val fun x => { x with meas := again }).slicesNear n.val
          (near = false → (t.rxL n.val).bgCal = r.bgCal ∧ t.longOps = s.longOps) ∧
          (near = true → (t.rxL n.val).bgCal = none ∧ calUp t false ∧
            ∀ o, s.findOp 0x30 n.val = some o → LastReply t o.ref .ok (.data [2, 0, 0, 0]) ∧ o ∉ t.longOps)) ∧
        (st ≠ 1 → ¬ (st = 3 ∧ r.bgCal.isSome = true) → Ignores (.rxCalComplete n first again lit) s) ∧
        (st = 1 → r.calMeth ≠ 1 → r.calMeth ≠ 2 → Ignores (.rxCalComplete n first again lit) s))) ∧
    (∀ found : List SliceMeas,
      (found ≠ [] → WellFormed.slices found = false → exec (.rxCalTimeout n found) s = .refused (.illFormed "RX_CAL_TIMEOUT")) ∧
      (found = [] ∨ WellFormed.slices found = true →
        (st ≠ 1 → Ignores (.rxCalTimeout n found) s) ∧
        (st = 1 → ∃ t, exec (.rxCalTimeout n found) s = .next t ∧ t.rd (LRX.STATE n.val) = 2 ∧ (t.rxL n.val).step = 3 ∧
          calUp t true ∧ t.tx = s.tx ∧ t.ctxT = s.ctxT ∧
          ((r.calMeth = 1 ∨ r.calMeth = 2) → t.rd (LRX.CAL_METHOD n.val) = r.calMeth ∧
            (t.rxL n.val).slices = if found = [] ∨ s.bit DEV.CALSRC_FAIL n.val then r.slices
              else (s.rxCal n.val r.calMeth found found).words) ∧
          (r.calMeth ≠ 1 → r.calMeth ≠ 2 → t.rd (LRX.CAL_METHOD n.val) = s.rd (LRX.CAL_METHOD n.val) % 2 ^ fieldWidth (LRX.CAL_METHOD n.val) ∧
            (t.rxL n.val).slices = r.slices)))) ∧
    (let next := if s.dwellNow n.val = 0 then 6 else 5
     (¬ (st = 2 ∧ r.step = 4) → Ignores (.coarseGainTimeout n) s ∧ Ignores (.coarseGainDone n) s) ∧
     (r.cleanTicks < 64 → Ignores (.coarseGainDone n) s) ∧
     (st = 2 → r.step = 4 →
       (∃ t, exec (.coarseGainTimeout n) s = .next t ∧ (t.rxL n.val).step = next ∧ (t.rxL n.val).dwell = 0 ∧ t.regs = s.regs) ∧
       (64 ≤ r.cleanTicks → ∃ t, exec (.coarseGainDone n) s = .next t ∧ (t.rxL n.val).step = next ∧ t.regs = s.regs))) ∧
    (¬ (st = 2 ∧ r.relinkT = none ∧ 4 ≤ r.step) → Ignores (.rxBringupTimeout n) s) ∧
    (st = 2 → r.relinkT = none → 4 ≤ r.step → ∃ t, exec (.rxBringupTimeout n) s = .next t ∧ t.rd (LRX.STATE n.val) = 5 ∧
      (t.rxL n.val).step = 0 ∧ t.tx = s.tx ∧ t.ctxT = s.ctxT) ∧
    (r.bgCal = none → Ignores (.bgCalibrateTimeout n) s) ∧
    (r.bgCal.isSome = true → ∃ t, exec (.bgCalibrateTimeout n) s = .next t ∧ (t.rxL n.val).bgCal = none ∧ calUp t true ∧
      ∀ o, s.findOp 0x30 n.val = some o → LastReply t o.ref .ok (.data [2, 1, 0, 0]) ∧ o ∉ t.longOps) ∧
    (let go := s.rd (LTX.STATE n.val) = 1 ∧ x.step = 2
     let set := fun (t : State) (words : List Nat) (bad : Bool) => (∀ i < 4, t.rd (LTX.SUBDAC_TRIM n.val i) = words.getD i 0 % 2 ^ 32) ∧
       (t.txL n.val).step = 3 ∧ (t.txL n.val).step3T = s.nowL n.val ∧ t.bit (LTX.FLAGS n.val) 2 = bad ∧
       (bad = false → t.bit (s.txCalAddr n.val) n.val = true) ∧ t.rx = s.rx ∧ t.shpT = s.shpT
     let fails := fun (t : State) => t.rd (LTX.STATE n.val) = 4 ∧ (t.txL n.val).step = 0 ∧ t.rx = s.rx
     (∀ (first again : List TrimMeas) (span : Nat),
       (¬ (WellFormed.subDacs first = true ∧ WellFormed.subDacs again = true) →
         exec (.txCalComplete n first again span) s = .refused (.illFormed "TX_CAL_COMPLETE")) ∧
       (WellFormed.subDacs first = true → WellFormed.subDacs again = true →
         let words := (trimFits first).map (·.trimWord)
         (¬ go → Ignores (.txCalComplete n first again span) s) ∧
         (go → (∀ f ∈ trimFits first, f.trimOk = true) → ∃ t, exec (.txCalComplete n first again span) s = .next t ∧
           set t words !(trimsNear again words) ∧ (t.txL n.val).swingTrim = swingTrim (s.rd (LTX.SWING n.val)) span) ∧
         (go → (∃ f ∈ trimFits first, f.trimOk = false) → ∃ t, exec (.txCalComplete n first again span) s = .next t ∧ fails t))) ∧
     ∀ found : List TrimMeas,
       (found ≠ [] → WellFormed.subDacs found = false →
         exec (.txCalTimeout n found) s = .refused (.illFormed "TX_CAL_TIMEOUT")) ∧
       (found = [] ∨ WellFormed.subDacs found = true →
         (¬ go → Ignores (.txCalTimeout n found) s) ∧
         (go → found = [] → ∃ t, exec (.txCalTimeout n found) s = .next t ∧
           set t (s.rdList (LTX.SUBDAC_TRIM n.val 0) 4) true) ∧
         (go → found ≠ [] → (∀ f ∈ trimFits found, f.trimOk = true) → ∃ t, exec (.txCalTimeout n found) s = .next t ∧
           set t ((trimFits found).map (·.trimWord)) true) ∧
         (go → (∃ f ∈ trimFits found, f.trimOk = false) → ∃ t, exec (.txCalTimeout n found) s = .next t ∧ fails t))) ∧
    (let go := s.rd (LTX.STATE n.val) = 1 ∧ x.step = 3 ∧ s.passed (dieOfLine n.val) x.step3T 64 = true
     let quiet := decide (s.rd (LTX.SQUELCH n.val) = 1) || s.sys.txDis || s.sys.thermShut
     (¬ go → Ignores (.txOutputEnable n) s) ∧
     (go → ∃ t, exec (.txOutputEnable n) s = .next t ∧ t.rd (LTX.STATE n.val) = (if quiet then 3 else 2) ∧
       t.bit (LTX.FLAGS n.val) 0 = quiet ∧ (t.txL n.val).gated = quiet ∧ (t.txL n.val).step = 0 ∧ t.rx = s.rx ∧ t.shpT = s.shpT))

/-! ### Framing and host lanes -/

/-- Receive framing, host-code taps and host lanes. -/
def Obligations.FramingAndHostLanes : Prop :=
  (∀ (n : Lane) (s : State),
    let r := s.rxL n.val
    let fs := s.rd (FEC.FRAME_STATE n.val)
    (r.passedTwice = [] ∨ fs ≠ 1 → Ignores (.frameLock n) s) ∧
    (∀ o rest, r.passedTwice = o :: rest → fs = 1 → ∃ t, exec (.frameLock n) s = .next t ∧ t.rd (FEC.FRAME_STATE n.val) = 2 ∧
      (t.rxL n.val).offset = o ∧ t.bit (FEC.FLAGS n.val) 0 = false ∧ t.tx = s.tx ∧ t.host = s.host) ∧
    (let lof := fs = 2 ∧ 4 ≤ r.lofTicks ∧ s.bit (LRX.FLAGS n.val) 0 = false ∧ r.dark < s.rd (LRX.LOS_TICKS n.val)
     (¬ lof → Ignores (.lofDeclare n) s) ∧
     (lof → ∃ t, exec (.lofDeclare n) s = .next t ∧ t.bit (FEC.FLAGS n.val) 0 = true ∧ t.bit (FEC.FLAGS n.val) 1 = false ∧
       t.rd (FEC.LOF_CNT n.val) = (s.rd (FEC.LOF_CNT n.val) + 1) % 2 ^ 32 ∧ t.rd (FEC.FRAME_STATE n.val) = 1 ∧
       (t.rxL n.val).outValid = false ∧ t.tx = s.tx ∧
       ∀ k ∈ pairOf n.val, s.hostUp k = true → t.bit (HTX.FLAGS k) 0 = true)) ∧
    (r.winDone = none → Ignores (.fillWindowEnd n) s) ∧
    (∀ bad, r.winDone = some bad → ∃ t, exec (.fillWindowEnd n) s = .next t ∧ (t.rxL n.val).winDone = none ∧
      (fs = 2 → t.bit (FEC.FLAGS n.val) 1 = decide (bad ≤ 512)) ∧ t.tx = s.tx) ∧
    (s.lossHolds n.val = true → Ignores (.lineLossEnd n) s) ∧
    (s.lossHolds n.val = false → ∃ t, exec (.lineLossEnd n) s = .next t ∧ t.host = s.host ∧ t.rx = s.rx ∧
      ∀ k ∈ pairOf n.val, t.bit (HTX.FLAGS k) 0 =
        (s.bit (HTX.FLAGS k) 0 && decide ((s.hostL k).clean < s.rd (HTX.LINE_OK_TICKS k))))) ∧
  (∀ (r : Region) (found : TapFind) (s : State),
    let out := found.out
    let lead := found.lead
    let b := if out then 3 else 2
    let rate := s.rate (if r.val < 2 then 0 else 1)
    let fits := s.tapValid r.val out = true ∧ ∀ x ∈ lead, ∀ y ∈ lead, x ≤ y + tapSkewMax rate out
    let same := fun (t : State) => t.rx = s.rx ∧ t.tx = s.tx ∧ t.host = s.host ∧ t.ctxT = s.ctxT
    (lead.length ≠ 4 → exec (.hostTapAlign r found) s = .refused (.illFormed "HOST_TAP_ALIGN")) ∧
    (lead.length = 4 → fits → ∃ t, exec (.hostTapAlign r found) s = .next t ∧ t.bit (FEC.FLAGS (2 * r.val)) b = true ∧
      t.bit (FEC.FLAGS (2 * r.val + 1)) b = true ∧ same t ∧
      (t.tap (tapIx r.val out)).start = lead.map fun l => tapDelay rate out + 2 * l) ∧
    (lead.length = 4 → ¬ fits → ∃ t, exec (.hostTapAlign r found) s = .next t ∧ t.bit (FEC.FLAGS (2 * r.val)) b = false ∧
      same t) ∧
    ∃ t, exec (.hostTapAlignLoss r out) s = .next t ∧ t.bit (FEC.FLAGS (2 * r.val)) b = false ∧ same t ∧
      (s.bit (FEC.FLAGS (2 * r.val)) b = true → t.bit (FEC.FLAGS (2 * r.val + 1)) b = false ∧
        (t.tap (tapIx r.val out)).start = []) ∧
      (s.bit (FEC.FLAGS (2 * r.val)) b = false → t.regs = s.regs ∧ t.taps = s.taps)) ∧
  ∀ (k : HostLane) (s : State),
    let st := s.rd (HRX.STATE k.val)
    let h := s.hostL k.val
    let los := s.bit (HRX.FLAGS k.val) 0
    let oneMore := fun (t : State) (a : Nat) => t.rd a = (s.rd a + 1) % 2 ^ fieldWidth a
    (let go := (st = 3 ∨ st = 4) ∧ 16 < (s.rdS (HRX.EBUF_FILL k.val)).natAbs
     (¬ go → Ignores (.ebufExcursion k) s) ∧
     (go → ∃ t, exec (.ebufExcursion k) s = .next t ∧ t.rd (HRX.STATE k.val) = 5 ∧ t.bit (HRX.FLAGS k.val) 3 = true ∧
       oneMore t (HRX.EBUF_CNT k.val) ∧ (t.hostL k.val).holdEbuf = true ∧ t.rx = s.rx)) ∧
    (let go := st ≠ 0 ∧ st ≠ 6 ∧ los = false ∧ s.rd (HRX.LOS_TICKS k.val) ≤ h.dark
     (¬ go → Ignores (.hostLosDeclare k) s) ∧
     (go → ∃ t, exec (.hostLosDeclare k) s = .next t ∧ t.bit (HRX.FLAGS k.val) 0 = true ∧ oneMore t (HRX.LOS_CNT k.val) ∧
       t.rx = s.rx ∧ (st = 3 ∨ st = 4 ∨ st = 5 → t.rd (HRX.STATE k.val) = 5 ∧ (t.hostL k.val).holdLos = true) ∧
       (st = 1 ∨ st = 2 → t.rd (HRX.STATE k.val) = st))) ∧
    (los = false ∨ h.lit < 2 → Ignores (.hostLosClear k) s) ∧
    (los = true → 2 ≤ h.lit → ∃ t, exec (.hostLosClear k) s = .next t ∧ t.bit (HRX.FLAGS k.val) 0 = false ∧
      (t.hostL k.val).holdLos = false ∧ t.rx = s.rx ∧
      (st = 1 → t.rd (HRX.STATE k.val) = if s.rd (HRX.LT_EN k.val) = 1 then 2 else 3) ∧
      (st = 5 → s.rd (HRX.AUTO_RELINK k.val) = 0 → h.holdGo = false → t.rd (HRX.STATE k.val) = 5)) ∧
    (let go := (st = 2 ∨ st = 3 ∨ st = 4) ∧ los = false ∧ h.dark < s.rd (HRX.LOS_TICKS k.val) ∧ (h.slips = true ∨ s.bit (HRX.FLAGS k.val) 2 = true) ∧
       s.bit (HRX.FLAGS k.val) 1 = false
     (¬ go → Ignores (.hostLolDeclare k) s) ∧
     (go → ∃ t, exec (.hostLolDeclare k) s = .next t ∧ t.bit (HRX.FLAGS k.val) 1 = true ∧ oneMore t (HRX.LOL_CNT k.val) ∧
       t.rd (HRX.STATE k.val) = (if st = 2 then 2 else 5) ∧ (st ≠ 2 → (t.hostL k.val).holdLol = true) ∧ t.rx = s.rx)) ∧
    (∀ req : TrainReq, st ≠ 2 → Ignores (.trainingRequest k req) s) ∧
    (st = 2 →
      (∃ t, exec (.trainingRequest k .ready) s = .next t ∧ (t.hostL k.val).partnerReady = true ∧ t.regs = s.regs) ∧
      (∀ on, ∃ t, exec (.trainingRequest k (.precode on)) s = .next t ∧ t.bit (HTX.FLAGS k.val) 2 = on ∧
        (t.hostL k.val).answer = .updated ∧ t.rx = s.rx ∧ t.tx = s.tx) ∧
      (∀ i, ∃ t, exec (.trainingRequest k (.noChange i)) s = .next t ∧ (t.hostL k.val).answer = .updated ∧ t.regs = s.regs) ∧
      (∀ p : Fin 8,
        let has := 1 ≤ p.val ∧ p.val ≤ 5 ∧ txTapsOk (s.sys.bundle.preset k.val p.val) = true
        (has → ∃ t, exec (.trainingRequest k (.preset p)) s = .next t ∧ (t.hostL k.val).answer = .updated ∧
          ∀ i < 6, t.rdS (HTX.FIR_TAP k.val i) = (s.sys.bundle.preset k.val p.val).getD i 0) ∧
        (¬ has → ∃ t, exec (.trainingRequest k (.preset p)) s = .next t ∧ (t.hostL k.val).answer = .atLimit ∧ t.regs = s.regs)) ∧
      (∀ (i : Fin 6) (req : TrainReq) (by_ : Int), (req = .increment i ∧ by_ = 1 ∨ req = .decrement i ∧ by_ = -1) →
        let taps := (List.range 6).map fun j => s.rdS (HTX.FIR_TAP k.val j)
        let new := taps.set i.val (taps.getD i.val 0 + by_)
        ∃ t, exec (.trainingRequest k req) s = .next t ∧ t.rx = s.rx ∧ t.tx = s.tx ∧
          (∀ a, a ≠ HTX.FIR_TAP k.val i.val → t.rd a = s.rd a) ∧
          (txTapsOk new = true → (t.hostL k.val).answer = .updated ∧ t.rdS (HTX.FIR_TAP k.val i.val) = new.getD i.val 0) ∧
          (txTapsOk new = false → (t.hostL k.val).answer = .atLimit ∧ t.rd (HTX.FIR_TAP k.val i.val) = s.rd (HTX.FIR_TAP k.val i.val))) ∧
      (∃ t, exec (.trainingTimeout k) s = .next t ∧ oneMore t (HRX.LT_FAIL_CNT k.val) ∧ t.bit (HRX.FLAGS k.val) 4 = true ∧
        t.rd (HRX.STATE k.val) = (if s.rd (HRX.AUTO_RELINK k.val) = 1 then 2 else 6) ∧ t.rx = s.rx)) ∧
    (¬ (st = 2 ∧ 64 ≤ h.good) → Ignores (.hostRxReady k) s) ∧
    (st = 2 → 64 ≤ h.good → ∃ t, exec (.hostRxReady k) s = .next t ∧ (t.hostL k.val).ready = true ∧ t.regs = s.regs) ∧
    (¬ (st = 2 ∧ h.ready = true ∧ h.partnerReady = true) → Ignores (.trainingEnd k) s) ∧
    (st = 2 → h.ready = true → h.partnerReady = true → ∃ t, exec (.trainingEnd k) s = .next t ∧ t.rd (HRX.STATE k.val) = 3 ∧
      (t.hostL k.val).trained = true ∧ (t.hostL k.val).retained = true ∧ t.bit (HRX.FLAGS k.val) 4 = false ∧
      t.bit (HRX.FLAGS k.val) 5 = decide (s.rd (HRX.PRECODE_REQ k.val) = 1) ∧ t.bit (HTX.FLAGS k.val) 4 = false ∧ t.rx = s.rx) ∧
    (st ≠ 2 → Ignores (.trainingTimeout k) s) ∧
    (¬ (st = 3 ∧ 64 ≤ h.good) → Ignores (.hostDataEntry k) s) ∧
    (st = 3 → 64 ≤ h.good → ∃ t, exec (.hostDataEntry k) s = .next t ∧ t.rd (HRX.STATE k.val) = 4 ∧
      t.rd (HRX.EBUF_FILL k.val) = 0 ∧ t.bit (HRX.FLAGS k.val) 1 = false ∧ t.bit (HRX.FLAGS k.val) 3 = false ∧ t.rx = s.rx) ∧
    (st ≠ 3 → Ignores (.checkTimeout k) s) ∧
    (st = 3 → ∃ t, exec (.checkTimeout k) s = .next t ∧ t.rd (HRX.STATE k.val) = 5 ∧ (t.hostL k.val).holdCheck = true ∧ t.rx = s.rx) ∧
    (let go := st = 5 ∧ h.holdCheck = true ∧ h.holdLos = false ∧ h.holdPll = false ∧ s.rd (HRX.AUTO_RELINK k.val) = 1
     (¬ go → Ignores (.checkHoldExpiry k) s) ∧
     (go → ∃ t, exec (.checkHoldExpiry k) s = .next t ∧ oneMore t (HRX.RELINK_CNT k.val) ∧ (t.hostL k.val).holdCheck = false ∧
       t.rd (HRX.STATE k.val) = (if s.rd (HRX.LT_EN k.val) = 1 then 2 else 3) ∧ t.rx = s.rx))

/-! ### Observability windows, references, housekeeping, thermal -/

/-- Windows, references, captures, histograms and log suppression. -/
def Obligations.WindowsCapturesAndReferences : Prop :=
  (∀ (q h : List Moments) (s : State),
    (q.length ≠ 8 ∨ h.length ≠ 16 → exec (.qualityWindowEnd q h) s = .refused (.illFormed "QUALITY_WINDOW_END")) ∧
    (q.length = 8 → h.length = 16 → (∀ m ∈ q, m.length = 4) → (∀ m ∈ h, m.length = 4) →
      (s.tickno % max 1 (s.rd DEV.QUAL_WIN) ≠ 0 → Ignores (.qualityWindowEnd q h) s) ∧
      (s.tickno % max 1 (s.rd DEV.QUAL_WIN) = 0 → ∃ t, exec (.qualityWindowEnd q h) s = .next t ∧ t.doms = s.doms ∧
        t.tx = s.tx ∧ t.ctxT = s.ctxT ∧ KeepsRequests s t ∧ t.sys.windows = (s.sys.windows + 1) % 2 ^ 32 ∧
        (∀ n : Lane, (t.rxL n.val).qTicks = 0 ∧ (t.rxL n.val).qTrack = 0 ∧ (t.rxL n.val).qBits = 0 ∧
          (s.recipes (dieOfLine n.val) = false → t.rd (OBS.QSEQ n.val) = s.rd (OBS.QSEQ n.val)) ∧
          (s.recipes (dieOfLine n.val) = true →
            let total := ((List.range 4).map fun i => ((q.getD n.val []).getD i (0, 0, 0)).1).sum
            let ok := decide ((s.rxL n.val).qTicks ≤ 2 * (s.rxL n.val).qTrack ∧ 65536 ≤ total ∧ 0 < (s.rxL n.val).qTicks)
            t.rd (OBS.QSEQ n.val) = t.sys.windows % 2 ^ fieldWidth (OBS.QSEQ n.val) ∧
            t.rd (OBS.QTICKNO n.val) = s.nowL n.val % 2 ^ 48 ∧ t.bit (OBS.QFLAGS n.val) 0 = ok ∧
            (ok = false → t.rd (OBS.SNR n.val) = 0x8000))) ∧
        ∀ k : HostLane, (t.hostL k.val).qTicks = 0 ∧ (t.hostL k.val).qData = 0 ∧
          (s.recipes (dieOfHost k.val) = true →
            t.rd (OBS.HQSEQ k.val) = t.sys.windows % 2 ^ fieldWidth (OBS.HQSEQ k.val))))) ∧
  (∀ (step : RefStep) (n : Lane) (vref : BitVec 16) (calOk txOk : BitVec 8) (s : State),
    (s.sys.refcal = none → Ignores (.refcalStepTimeout step n) s ∧ Ignores (.refcalComplete vref calOk txOk) s) ∧
    ∀ c, s.sys.refcal = some c →
      let judged := fun (t : State) => (c.judged = true → t.rd DEV.REF_STATE = s.rd DEV.REF_STATE ∧
          t.rd DEV.VREF_MEAS = s.rd DEV.VREF_MEAS) ∧
        (c.judged = false → t.rd DEV.VREF_MEAS = vref.toNat ∧
          t.rd DEV.REF_STATE = if 15564800 ≤ vref.toNat * 1000 ∧ vref.toNat * 1000 ≤ 17203200 then 1 else 2)
      (c.judged = true → Ignores (.refcalStepTimeout .reference n) s) ∧
      (c.judged = false → ∃ t, exec (.refcalStepTimeout .reference n) s = .next t ∧ t.sys.refcal = some { c with judged := true } ∧
        t.rd DEV.REF_STATE = 3 ∧ t.rd DEV.VREF_MEAS = s.rd DEV.VREF_MEAS ∧ KeepsPath s t) ∧
      (∃ t, exec (.refcalStepTimeout (.source vref) n) s = .next t ∧ t.bit DEV.CALSRC_FAIL n.val = true ∧ judged t ∧
        t.sys.refcal = some { c with judged := true } ∧ KeepsPath s t) ∧
      (∃ t, exec (.refcalStepTimeout (.sense vref) n) s = .next t ∧ t.bit DEV.TXSENSE_FAIL n.val = true ∧ judged t ∧
        t.sys.refcal = some { c with judged := true } ∧ KeepsPath s t) ∧
      ∃ t, exec (.refcalComplete vref calOk txOk) s = .next t ∧ t.sys.refcal = none ∧ KeepsPath s t ∧ judged t ∧
        (∀ i : Fin 8, t.bit DEV.CALSRC_FAIL i.val = (s.bit DEV.CALSRC_FAIL i.val && !calOk.getLsbD i.val) ∧
          t.bit DEV.TXSENSE_FAIL i.val = (s.bit DEV.TXSENSE_FAIL i.val && !txOk.getLsbD i.val)) ∧
        (s.sys.power.cold = 8 → t.sys.power.cold = 9 ∧ t.rd RST.BOOT_STEP = 9) ∧
        ∀ r, c.ref = some r → LastReply t r .ok (.data [0, 3, 0, 0])) ∧
  (∀ (n : Lane) (s : State),
    (s.rd (OBS.CAP_STATE n.val) ≠ 1 ∨ (s.cap n.val).hit = none ∧ ((s.cap n.val).trigger ≠ 5 ∨
      reached s.tickno (s.cap n.val).trigTick = false) → Ignores (.captureTrigger n) s) ∧
    (∀ p, s.rd (OBS.CAP_STATE n.val) = 1 → ((s.cap n.val).hit = some p ∨ (s.cap n.val).hit = none ∧
        (s.cap n.val).trigger = 5 ∧ reached s.tickno (s.cap n.val).trigTick = true ∧ p = s.rd (OBS.CAP_WPOS n.val)) →
      ∃ t, exec (.captureTrigger n) s = .next t ∧ t.rd (OBS.CAP_STATE n.val) = 2 ∧ t.rd (OBS.CAP_TRIG_POS n.val) = p % 2 ^ 32 ∧
        t.bit (OBS.CAP_FLAGS n.val) 2 = true ∧ (t.cap n.val).hit = none ∧ (t.cap n.val).firedAt = s.tickno ∧ t.rx = s.rx) ∧
    (s.capLeft n.val ≠ some 0 → Ignores (.captureEnd n) s) ∧
    (s.capLeft n.val = some 0 → ∃ t, exec (.captureEnd n) s = .next t ∧ t.rd (OBS.CAP_STATE n.val) = 3 ∧
      (t.cap n.val).ref = none ∧ (t.cap n.val).words = (s.cap n.val).words ∧ t.rx = s.rx ∧
      ∀ r, (s.cap n.val).ref = some r →
        LastReply t r .ok (.data (le 4 (s.rd (OBS.CAP_TRIG_POS n.val)) ++ le 8 (s.cap n.val).firedAt))) ∧
    (s.hists.getD n.val none = none → Ignores (.histRunEnd n) s) ∧
    ∀ h, s.hists.getD n.val none = some h →
      (h.left ≠ 0 → Ignores (.histRunEnd n) s) ∧
      (h.left = 0 → h.bins.length = 64 → ∃ t, exec (.histRunEnd n) s = .next t ∧
        (∀ i < 64, t.rd (OBS.HIST_BIN (64 * n.val + i)) = h.bins.getD i 0 % 2 ^ 32) ∧
        t.rd (OBS.HIST_SEQ n.val) = (s.rd (OBS.HIST_SEQ n.val) + 1) % 2 ^ fieldWidth (OBS.HIST_SEQ n.val) ∧ t.rx = s.rx ∧
        (s.bit (OBS.HIST_CFG n.val) 30 = false → t.hists.getD n.val none = none))) ∧
  ∀ (code : BitVec 16) (inst : BitVec 8) (s : State),
    ((∀ x ∈ s.suppr, ¬ (x.code = code.toNat ∧ x.inst = inst.toNat)) → Ignores (.logSuppressionEnd code inst) s) ∧
    ∀ x, s.suppr = [x] → x.code = code.toNat → x.inst = inst.toNat →
      (8 ≤ s.logRecent x.code x.inst → Ignores (.logSuppressionEnd code inst) s) ∧
      (s.logRecent x.code x.inst < 8 → x.die1 = false → ∃ t, exec (.logSuppressionEnd code inst) s = .next t ∧ t.suppr = [] ∧
        t.bit OBS.FLAGS 1 = false ∧ KeepsPath s t ∧
        ∃ e, t.log.getLast? = some e ∧ e.code = 0x7002 ∧ e.inst = x.inst ∧ e.level = x.level ∧ e.tick = s.tickno ∧
          e.detail = x.code * 65536 + min x.count 65535)

namespace Sys2Proof.Spec

open Sys2Proof.Machine

/-- One slew step from `now` towards `target` (R355): at most `step` codes, at once with step 0. -/
def slewed (now target step : Nat) : Nat :=
  if step = 0 then target else if now < target then min target (now + step) else max target (now - step)

/-- A reading with system calibration (R350): 2,048 plus (x − offset) · gain / 2^14, to the nearest, within 16 bits. -/
def calibrated (x ofs gain : Nat) : Int := max 0 (min 65535 (2048 + (((x : Int) - ofs) * gain + 8192) / 16384))

end Sys2Proof.Spec

/-- The housekeeping converter and the bias outputs. -/
def Obligations.HousekeepingAndBiasOutputs : Prop :=
  (∀ (x : BitVec 16) (s : State),
    let h := s.sys.hk
    (s.adcOn = false ∨ s.refOn = false ∨ h.pass = none ∧ (h.cal = none ∨ h.start = true ∧ h.quota = 0) →
      Ignores (.conversionSlot x) s) ∧
    (s.adcOn = true → s.refOn = true → h.pass = none → ∀ c, h.cal = some c → (h.start = false ∨ h.quota ≠ 0) → c.count + 1 ≠ 1024 →
      ∃ t, exec (.conversionSlot x) s = .next t ∧ t.regs = s.regs ∧ t.sys.hk.quota = h.quota - 1 ∧
        t.sys.hk.cal = some { c with count := c.count + 1, sum := c.sum + x.toNat, sumSq := c.sumSq + x.toNat * x.toNat }) ∧
    (s.adcOn = true → s.refOn = true → ∀ k < 64, h.pass = some k →
      let w := h.steps.getD k 0
      ∃ t, exec (.conversionSlot x) s = .next t ∧
        (t.rd (HK.RESULT k) : Int) = (if w.testBit 20 then
          calibrated x.toNat (h.ofs.getD (w % 32) 2048) (h.gain.getD (w % 32) 0x4000) else x.toNat) ∧
        (k + 1 < h.steps.length → t.sys.hk.pass = some (k + 1) ∧ t.rd HK.PASS_CNT = s.rd HK.PASS_CNT) ∧
        (h.steps.length ≤ k + 1 → t.sys.hk.pass = none ∧
          t.rd HK.PASS_CNT = (s.rd HK.PASS_CNT + 1) % 2 ^ fieldWidth HK.PASS_CNT) ∧
        t.rx = s.rx ∧ t.tx = s.tx ∧ t.doms = s.doms)) ∧
  (∀ s : State,
    let h := s.sys.hk
    let may := s.adcOn = true ∧ h.pass = none ∧ s.rd HK.SEQ_TRIG ≠ 0 ∧ (h.start = true ∨ s.rd HK.SEQ_TRIG = 1)
    (¬ may → Ignores .passStart s) ∧
    (may → ∃ t, exec .passStart s = .next t ∧ t.sys.hk.pass = some 0 ∧ t.sys.hk.start = false ∧ t.rd HK.STATE = 2 ∧
      t.sys.hk.steps = (List.range (s.rd HK.SEQ_LEN)).map (fun k => s.rd (HK.STEP k)) ∧
      (∀ a, a ≠ HK.STATE → t.rd a = s.rd a) ∧ KeepsPath s t) ∧
    (s.tickTrigDue = false → Ignores .seqTickTrigger s) ∧
    ∀ c ∈ [(Instr.seqTimerTrigger, 2), (Instr.seqTickTrigger, 3)],
      (s.rd HK.SEQ_TRIG ≠ c.2 ∨ s.adcOn = false → Ignores c.1 s) ∧
      (s.rd HK.SEQ_TRIG = c.2 → s.adcOn = true → (c.2 = 3 → s.tickTrigDue = true) →
        ∃ t, exec c.1 s = .next t ∧ KeepsPath s t ∧ t.sys.hk.pass = h.pass ∧
        (h.latched = false → h.pass = none → h.start = false → t.sys.hk.start = true ∧ t.sys.hk.latched = false ∧ t.regs = s.regs) ∧
        (h.latched = false → (h.pass ≠ none ∨ h.start = true) → t.sys.hk.latched = true ∧ t.regs = s.regs) ∧
        (h.latched = true → t.sys.hk.latched = true ∧
          t.rd HK.TRIG_OVERLAP = (s.rd HK.TRIG_OVERLAP + 1) % 2 ^ fieldWidth HK.TRIG_OVERLAP))) ∧
  ∀ (c : Chan) (s : State),
    let n := c.val
    let b := s.bias n
    let now := s.rd (BDAC.OUT_CODE n)
    let put := fun (t : State) (v : Nat) => t.rd (BDAC.OUT_CODE n) = v % 2 ^ fieldWidth (BDAC.OUT_CODE n) ∧ KeepsPath s t
    (s.bit BDAC.HOLD n = true ∨ s.dacOn = false ∨ s.refOn = false ∨ b.phase = some .wait → Ignores (.slewUpdate c) s) ∧
    (s.bit BDAC.HOLD n = false → s.dacOn = true → s.refOn = true →
      let up := slewed now (s.rd (BDAC.CODE n)) (s.rd (BDAC.SLEW_STEP n))
      (b.phase = none → ∃ t, exec (.slewUpdate c) s = .next t ∧ put t up ∧ t.bias n = b) ∧
      (b.phase = some .up → ∃ t, exec (.slewUpdate c) s = .next t ∧ put t up ∧
        (t.bias n).phase = if up = s.rd (BDAC.CODE n) then none else some .up) ∧
      (b.phase = some .down → ∃ t, exec (.slewUpdate c) s = .next t ∧ put t (slewed now 0 b.step) ∧
        (slewed now 0 b.step = 0 → (t.bias n).phase = some .wait ∧
          t.rd (BDAC.OUT_SPAN n) = s.rd (BDAC.SPAN n) % 2 ^ fieldWidth (BDAC.OUT_SPAN n)) ∧
        (slewed now 0 b.step ≠ 0 → (t.bias n).phase = some .down ∧ t.rd (BDAC.OUT_SPAN n) = s.rd (BDAC.OUT_SPAN n)))) ∧
    (b.phase ≠ some .wait → Ignores (.spanSwitchWaitEnd c) s) ∧
    (b.phase = some .wait → ∃ t, exec (.spanSwitchWaitEnd c) s = .next t ∧ t.bias n = { b with phase := some .up } ∧
      t.regs = s.regs ∧ KeepsPath s t) ∧
    (s.dacOn = false → Ignores (.shortCircuitDetect c) s) ∧
    (s.dacOn = true → ∃ t, exec (.shortCircuitDetect c) s = .next t ∧ t.bit BDAC.SC_STAT n = true ∧
      t.rd (BDAC.SC_CNT n) = (s.rd (BDAC.SC_CNT n) + 1) % 2 ^ fieldWidth (BDAC.SC_CNT n) ∧ KeepsPath s t ∧
      (s.bit BDAC.SC_SAFE n = true → t.bit BDAC.HOLD n = true ∧ t.rd (BDAC.OUT_CODE n) = 0 ∧ t.rd (BDAC.OUT_SPAN n) = 0) ∧
      (s.bit BDAC.SC_SAFE n = false → t.rd BDAC.HOLD = s.rd BDAC.HOLD ∧ t.rd (BDAC.OUT_CODE n) = now))

/-- Thermal management and TX_DIS. -/
def Obligations.ThermalAndTransmitDisable : Prop :=
  (∀ (d : Die) (temps : List (BitVec 16)) (s : State),
    (temps.length ≠ 8 → exec (.thermalSample d temps) s = .refused (.illFormed "THERMAL_SAMPLE")) ∧
    (temps.length = 8 → s.thermOn = false → Ignores (.thermalSample d temps) s) ∧
    ∀ x : BitVec 16, temps = List.replicate 8 x → s.thermOn = true → s.rd PWR.STATE < 2 → s.sys.power.cold = 0 → s.rd THM.SENSOR_FAIL = 0 → -200 ≤ x.toInt → x.toInt ≤ 600 →
      ∃ t, exec (.thermalSample d temps) s = .next t ∧ (∀ i < 8, t.rd (THM.SENSOR (8 * d.val + i)) = x.toNat) ∧
        (∀ i < 2, t.rd (THM.RG_TEMP (2 * d.val + i)) = x.toNat ∧
          t.rd (THM.RG_LEVEL (2 * d.val + i)) = s.rd (THM.RG_LEVEL (2 * d.val + i))) ∧ t.rx = s.rx ∧ t.host = s.host ∧ t.ctxT = s.ctxT ∧
        (s.sys.thermShut = false → s.thr THM.SHUT_THR ≤ x.toInt → t.sys.thermShut = true ∧ t.sys.therm.lanesDown = true ∧
          t.bit OBS.FAULT_STAT 0 = true ∧ t.rd THM.STATE = 3 ∧ t.rd BDAC.HOLD = 0xFFFFFF ∧
          (∀ n < 8, t.rd (LTX.SQUELCH n) = 1 ∧ (t.txL n).gated = true ∧ t.rd (LTX.STATE n) ≠ 2) ∧
          ∀ k < 16, t.rd (HTX.SQUELCH k) = 1) ∧
        (s.sys.thermShut = false → x.toInt < s.thr THM.SHUT_THR → t.sys.thermShut = false ∧ t.tx = s.tx ∧
          (s.rd THM.MODE = 0 → ∀ i < 2, s.rd (THM.RG_LEVEL (2 * d.val + i)) = 0 → s.thr THM.THROT_THR ≤ x.toInt →
            1 ≤ s.rd THM.THROT_MAX → s.sys.therm.step.getD (2 * d.val + i) none = none →
            t.sys.therm.step.getD (2 * d.val + i) none = some (1, s.later d.val 2))) ∧
        ∀ i < 19, refSensor i / 8 = d.val →
          let was := s.sys.therm.trims.getD i ⟨0, none⟩
          let old := (was.next.map (·.1)).getD was.now
          ∃ v, old - 1 ≤ v ∧ v ≤ old + 1 ∧
            t.sys.therm.trims.getD i ⟨0, none⟩ = ⟨was.now, some (v, if i < 2 then none else some (s.later d.val 1))⟩) ∧
  (∀ s : State,
    (s.sys.therm.lanesDown = false → Ignores .shutdownLanesDown s) ∧
    (s.sys.therm.lanesDown = true → ∃ t, exec .shutdownLanesDown s = .next t ∧ t.sys.therm.lanesDown = false ∧
      (∀ n < 8, t.rd (LRX.STATE n) = 0 ∧ t.rd (LTX.STATE n) = 0) ∧ ∀ k < 16, t.rd (HRX.STATE k) = 0) ∧
    (s.sys.txDis = true → Ignores .txDisAssert s) ∧
    (s.sys.txDis = false → ∃ t, exec .txDisAssert s = .next t ∧ t.sys.txDis = true ∧ t.rd BDAC.HOLD = 0xFFFFFF ∧
      (∀ c < 24, t.rd (BDAC.OUT_CODE c) = 0) ∧ t.live = s.live.filter (fun w => !isLtxSquelch w.addr) ∧
      t.rx = s.rx ∧ t.host = s.host ∧
      ∀ n < 8, t.rd (LTX.SQUELCH n) = 1 ∧ (t.txL n).gated = true ∧ t.bit (LTX.FLAGS n) 0 = true ∧ t.bit (LTX.FLAGS n) 5 = true ∧
        t.rd (LTX.STATE n) = (if s.rd (LTX.STATE n) = 2 then 3 else s.rd (LTX.STATE n)) ∧
        t.rd (LTX.SQUELCH_CNT n) = (s.rd (LTX.SQUELCH_CNT n) + 1) % 2 ^ 32) ∧
    (∃ t, exec .txDisDeassert s = .next t ∧ t.sys.txDis = false ∧ KeepsPath s t ∧ (∀ n < 8, t.bit (LTX.FLAGS n) 5 = false) ∧
      (∀ n, t.rd (LTX.SQUELCH n) = s.rd (LTX.SQUELCH n) ∧ t.rd (LTX.STATE n) = s.rd (LTX.STATE n)) ∧ t.rd BDAC.HOLD = s.rd BDAC.HOLD) ∧
    ∀ x : BitVec 16,
      (s.rd PWR.STATE < 2 ∨ s.thermOn = true → Ignores (.aonThermalSample x) s) ∧
      (2 ≤ s.rd PWR.STATE → s.thermOn = false → ∃ t, exec (.aonThermalSample x) s = .next t ∧ t.sys.therm.s7 = x.toInt ∧ KeepsPath s t ∧
        (s.thr THM.SHUT_THR ≤ x.toInt → s.sys.therm.aonShut = false → t.sys.therm.aonShut = true ∧ t.bit OBS.FAULT_STAT 0 = true) ∧
        (s.sys.therm.aonShut = true → x.toInt ≤ s.thr THM.SHUT_THR - s.hyst → t.sys.therm.aonShut = false ∧ t.bit OBS.FAULT_STAT 0 = false))) ∧
  ∀ (r : Region) (s : State),
    (s.sys.therm.step.getD r.val none = none → Ignores (.throttleStep r) s) ∧
    ∀ tgt due, s.sys.therm.step.getD r.val none = some (tgt, due) →
      let l := s.rd (THM.RG_LEVEL r.val)
      let free := ∀ t0, s.sys.therm.lastStep.getD r.val none = some t0 → 4 ≤ s.since (r.val / 2) t0
      (s.sys.thermShut = true ∨ s.dueAt (r.val / 2) due = false ∨ ¬ free ∨ s.dueBefore .throttle = true →
        Ignores (.throttleStep r) s) ∧
      (s.sys.thermShut = false → s.dueAt (r.val / 2) due = true → free → s.dueBefore .throttle = false → tgt < 8 → l < 8 → l ≠ tgt →
        ∃ t, exec (.throttleStep r) s = .next t ∧ t.rd (THM.RG_LEVEL r.val) = (if l < tgt then l + 1 else l - 1) ∧
          t.rd THM.STEP_CNT = (s.rd THM.STEP_CNT + 1) % 2 ^ fieldWidth THM.STEP_CNT ∧
          t.sys.therm.lastStep.getD r.val none = some (s.now (r.val / 2)) ∧ KeepsPath s t ∧
          ∀ n : Lane, regionOfLine n.val = r.val →
            t.rd (LRX.CTX_CLASS_CEIL n.val) = min (ceilLimit (if l < tgt then l + 1 else l - 1)) (s.rxL n.val).comCeil % 32)

/-! ### Power states and supplies -/

namespace Sys2Proof.Spec

open Sys2Proof.Machine

/-- A counter or other field is one higher, at its width. -/
def OneMore (s t : State) (a : Nat) : Prop := t.rd a = (s.rd a + 1) % 2 ^ fieldWidth a

/-- No transition of the power state is under way. -/
def Settled (s : State) : Prop := s.sys.power.entry = 0 ∧ s.sys.power.wake = 0 ∧ s.sys.power.cold = 0

/-- The device begins the cold start of a wake from DIAPAUSE with this wake source (R391, R410). -/
def ColdWake (s t : State) (src : Nat) : Prop :=
  t.sys.power.cold = 1 ∧ t.sys.power.fromSleep = true ∧ t.rd RST.BOOT_STEP = 1 ∧ t.rd PWR.WAKE_SRC = src ∧ t.tickno = s.tickno ∧
    t.log = s.log ∧ t.sys.images.flash = s.sys.images.flash

/-- The machine has stopped its clocks and is in a sleep state, the retention voltage asked for (Table 14-6). -/
def Stopped (s t : State) (dest : Nat) : Prop :=
  t.rd PWR.STATE = dest ∧ OneMore s t (PWR.ENTRY_CNT (dest - 1)) ∧ t.sys.power.entry = 5 ∧ t.sys.mcState = 0 ∧
    (∀ i < 40, t.rd (PWR.CLK_STATE i) = 0) ∧ t.rd (PWR.DOM_STATE 93) = 1 ∧ t.rd (PWR.DOM_STATE 92) = 0 ∧
    t.rd PWR.VCORE_TARGET = (600 + 5 * s.rd PWR.RET_VCORE) % 2 ^ 16 ∧ t.ctxT = s.ctxT ∧ t.shpT = s.shpT

end Sys2Proof.Spec

/-- Entering a sleep state (Table 14-6). -/
def Obligations.SleepEntrySteps : Prop :=
  ∀ s : State,
    let p := s.sys.power
    (p.sleep = none → Ignores .sleepEntry s) ∧
    (∀ q, p.sleep = some q →
      let unread := ∃ x ∈ (s.trans q.ref.via).replies, x.ref.rid = q.ref.rid
      (unread → reached s.tickno q.latest = false → Ignores .sleepEntry s) ∧
      ((¬ unread ∨ reached s.tickno q.latest = true) →
        (∀ c, s.entryRefuser q.state = some c → ∃ t, exec .sleepEntry s = .next t ∧ t.sys.power.sleep = none ∧
          OneMore s t (PWR.REFUSE_CNT c) ∧ t.rd PWR.STATE = s.rd PWR.STATE ∧ KeepsPath s t) ∧
        (s.entryRefuser q.state = none → ∃ t, exec .sleepEntry s = .next t ∧ t.sys.power.sleep = none ∧
          t.sys.power.mask = q.mask ∧ t.sys.lanesIdle = true ∧ t.rd PWR.WAKE_LANES = s.upMask % 2 ^ 24 ∧
          (∀ n < 8, s.lineUp n = true → t.rd (LRX.STATE n) = (if s.rd (LRX.STATE n) = 5 then 5 else 4) ∧
            (t.txL n).gated = true ∧ t.rd (LTX.STATE n) ≠ 2) ∧
          (∀ k < 16, s.hostUp k = true → t.rd (HRX.STATE k) = if s.rd (HRX.STATE k) = 6 then 6 else 5) ∧
          (q.state = 1 → t.rd PWR.STATE = 1 ∧ OneMore s t (PWR.ENTRY_CNT 0) ∧ t.doms = s.doms) ∧
          (q.state = 2 ∨ q.state = 3 → t.rd PWR.STATE = s.rd PWR.STATE ∧ t.sys.power.entry = 2 ∧
            t.sys.power.entryTo = q.state ∧ t.rd BDAC.HOLD = 0xFFFFFF ∧ t.rd HK.STATE = 0 ∧
            t.sys.hk.pass = none ∧ t.adcOn = false ∧
            ∀ d < 2, (t.dom d).staged = [] ∧ (t.dom d).held = [] ∧ (t.dom d).bundle = none)))) ∧
    (¬ (p.entry = 2 ∧ s.drained = true) → Ignores .entryDrainDone s) ∧
    (p.entry = 2 → s.drained = true →
      (p.entryTo = 2 → ∃ t, exec .entryDrainDone s = .next t ∧ t.sys.power.entry = 3 ∧ t.regs = s.regs ∧ KeepsPath s t) ∧
      (p.entryTo = 3 → p.selfTest = true → ∃ t, exec .entryDrainDone s = .next t ∧ t.sys.power.entry = 3 ∧
        t.sys.selfTest = some ⟨0, none⟩) ∧
      (p.entryTo = 3 → p.selfTest = false → ∃ t, exec .entryDrainDone s = .next t ∧ Stopped s t 3)) ∧
    (¬ (p.entry = 2 ∧ s.drained = false) → Ignores .entryDrainTimeout s) ∧
    (p.entry = 2 → s.drained = false → ∃ t, exec .entryDrainTimeout s = .next t ∧ OneMore s t (PWR.REFUSE_CNT 0x24) ∧
      t.rd PWR.STATE = 0 ∧ t.sys.power.entry = 0 ∧ t.sys.lanesIdle = false) ∧
    (¬ (p.entry = 3 ∧ s.sys.selfTest = none) → Ignores .entrySaveDone s ∧ Ignores .entrySaveTimeout s) ∧
    (p.entry = 3 → s.sys.selfTest = none →
      ((p.entryTo = 2 ∨ p.entryTo = 3) → ∃ t, exec .entrySaveDone s = .next t ∧ Stopped s t p.entryTo) ∧
      ∃ t, exec .entrySaveTimeout s = .next t ∧ OneMore s t (PWR.REFUSE_CNT 0x27) ∧ t.rd PWR.STATE = 0 ∧
        t.sys.power.entry = 0 ∧ t.sys.lanesIdle = false) ∧
    (p.entry ≠ 5 → Ignores .entryAvsConfirm s ∧ Ignores .entryAvsTimeout s) ∧
    (p.entry = 5 → p.early = false →
      (15 ≤ s.rd PWR.VCORE_TARGET → s.rd PWR.VCORE_TARGET < 60000 → ∃ t, exec .entryAvsConfirm s = .next t ∧
        t.sys.power.entry = 0 ∧ t.sys.avsOk = true ∧ t.rd PWR.STATE = s.rd PWR.STATE ∧ KeepsPath s t ∧
        s.rd PWR.VCORE_TARGET ≤ t.rd PWR.VCORE_MEAS + 15 ∧ t.rd PWR.VCORE_MEAS ≤ s.rd PWR.VCORE_TARGET + 15) ∧
      ∃ t, exec .entryAvsTimeout s = .next t ∧ t.sys.power.entry = 0 ∧ t.bit PWR.FLAGS 3 = true ∧
        OneMore s t (PWR.REFUSE_CNT 4) ∧ t.rd PWR.STATE = s.rd PWR.STATE ∧ KeepsPath s t)

/-- Waking (Table 14-7). -/
def Obligations.WakeSourcesAndSteps : Prop :=
  ∀ s : State,
    let p := s.sys.power
    (∃ t, exec .wakeNAssert s = .next t ∧ t.sys.pins.wakeN = false ∧
      (p.mask.testBit 3 = false → t.regs = s.regs ∧ t.sys.power = p ∧ KeepsPath s t) ∧
      (p.mask.testBit 3 = true → Settled s →
        (s.rd PWR.STATE = 1 → t.sys.power.wake = 7 ∧ t.rd PWR.WAKE_SRC = 8) ∧
        (s.rd PWR.STATE = 2 → s.tooHot = false → t.sys.power.wake = 1 ∧ t.rd PWR.WAKE_SRC = 8 ∧ OneMore s t PWR.AVS_REQ_CNT ∧
          600 ≤ t.rd PWR.VCORE_TARGET ∧ t.rd PWR.VCORE_TARGET ≤ 780) ∧
        (s.rd PWR.STATE = 3 → s.tooHot = false → ColdWake s t 8))) ∧
    (∀ (host : Bool) (i : Fin 16),
      (s.watched host i.val = false → Ignores (.signalDetectWake host i) s) ∧
      (Settled s → s.rd PWR.STATE ≠ 1 → s.rd PWR.STATE ≠ 2 → Ignores (.signalDetectWake host i) s) ∧
      (s.watched host i.val = true → Settled s →
        (s.rd PWR.STATE = 1 → ∃ t, exec (.signalDetectWake host i) s = .next t ∧ t.sys.power.wake = 7 ∧
          t.rd PWR.WAKE_SRC = (if host then 2 else 1)) ∧
        (s.rd PWR.STATE = 2 → s.tooHot = false → ∃ t, exec (.signalDetectWake host i) s = .next t ∧ t.sys.power.wake = 1 ∧
          t.rd PWR.WAKE_SRC = (if host then 2 else 1) ∧ OneMore s t PWR.AVS_REQ_CNT))) ∧
    (∀ (saved : Bool) (us : BitVec 32),
      (p.waiting = true ∨ p.wake = 0 ∨ 7 < p.wake → Ignores (.wakeStepDone saved us) s) ∧
      (p.waiting = false → 1 ≤ p.wake → p.wake ≤ 7 → ∃ t, exec (.wakeStepDone saved us) s = .next t ∧
        (p.wake < 5 ∨ p.wake = 6 ∨ p.wake = 5 ∧ saved = true ∧ s.bothSampled = true → t.sys.power.wake = p.wake + 1) ∧
        (p.wake = 5 → saved = true → s.bothSampled = false → t = s.drive) ∧
        (p.wake = 1 → t.sys.pins.pgCore = true ∧ t.sys.avsOk = true) ∧
        (p.wake = 2 → t.sys.pins.pgAna = true ∧ t.sys.pins.pgHv = true) ∧
        (p.wake = 4 → ∀ r ∈ regionsOf (s.rd PWR.WAKE_LANES), (t.pll (2 * r)).locked = true ∧ (t.pll (2 * r + 1)).locked = true) ∧
        (p.wake = 5 → saved = false → t.sys.power.cold = 1 ∧ t.rd RST.BOOT_STEP = 1) ∧
        (p.wake = 6 → ∀ n < 8, t.rd (OBS.CAP_STATE n) = 0) ∧
        (p.wake = 7 → t.rd PWR.STATE = 0 ∧ OneMore s t PWR.WAKE_CNT ∧ t.rd PWR.LAST_WAKE_US = us.toNat ∧
          (s.sys.pins.testMode = false → t.sys.mcState = 2) ∧
          t.sys.power.wake = 0 ∧ t.sys.power.refs = [] ∧
          ∀ r ∈ p.refs, ⟨r, .ok, s.tickno % 65536, .data [0, byteOf p.tries], true⟩ ∈ (t.trans r.via).replies))) ∧
    (∀ which : Fin 8,
      (p.waiting = true ∨ waitRefuser false p.wake which.val = none → Ignores (.wakeStepTimeout which) s) ∧
      (p.wake = 4 → which.val / 2 ∉ regionsOf (s.rd PWR.WAKE_LANES) → Ignores (.wakeStepTimeout which) s) ∧
      ∀ c, p.waiting = false → waitRefuser false p.wake which.val = some c → p.cold = 0 →
        (p.wake = 4 → which.val / 2 ∈ regionsOf (s.rd PWR.WAKE_LANES)) →
        ∃ t, exec (.wakeStepTimeout which) s = .next t ∧ OneMore s t (PWR.REFUSE_CNT c) ∧ OneMore s t PWR.WAKE_ABORT_CNT ∧
          (p.tries < s.rd PWR.WAKE_RETRIES → t.sys.power.waiting = true ∧ t.sys.power.tries = p.tries + 1 ∧
            t.bit PWR.FLAGS 4 = true) ∧
          (s.rd PWR.WAKE_RETRIES ≤ p.tries → t.sys.power.wake = 0 ∧ t.sys.power.refs = [] ∧ t.bit PWR.FLAGS 4 = false ∧
            ∀ r, p.refs = [r] → LastReply t r .timeout (.err (refuserName c) 0xFFFFFFFF 0))) ∧
    (p.waiting = false → Ignores .wakeRetry s) ∧
    (p.waiting = true → s.tooHot = false →
      (p.cold = 0 → ∃ t, exec .wakeRetry s = .next t ∧ t.sys.power.wake = 1 ∧ t.sys.power.waiting = false ∧
        OneMore s t PWR.AVS_REQ_CNT) ∧
      (p.cold ≠ 0 → s.bit RST.FLAGS 0 = true → ∃ t, exec .wakeRetry s = .next t ∧ t.sys.power.cold = 3 ∧
        t.rd RST.BOOT_STEP = 3 ∧ t.sys.power.waiting = false ∧ OneMore s t PWR.AVS_REQ_CNT) ∧
      (p.cold ≠ 0 → s.bit RST.FLAGS 0 = false → ∃ t, exec .wakeRetry s = .next t ∧ t.sys.power.cold = 1 ∧
        t.rd RST.BOOT_STEP = 1 ∧ t.sys.power.waiting = false ∧ KeepsPath s t))

/-- Supplies. -/
def Obligations.SuppliesAndVoltage : Prop :=
  ∀ s : State,
    (∀ (mv : BitVec 16) (agree : Bool), ∃ t, exec (.avsReadback mv agree) s = .next t ∧ t.rd PWR.VCORE_MEAS = mv.toNat ∧
      t.sys.avsOk = agree ∧ KeepsPath s t ∧
      (agree = true → ∀ a, a ≠ PWR.VCORE_MEAS → t.rd a = s.rd a) ∧
      (agree = false → t.bit PWR.FLAGS 2 = true ∧ OneMore s t PWR.AVS_FAULT_CNT ∧ t.bit OBS.FAULT_STAT 4 = true)) ∧
    (∀ up : Bool,
      let v := if up then s.rd PWR.VCORE_TARGET + 5 else s.rd PWR.VCORE_TARGET - 5
      let ok := s.rd PWR.STATE < 2 ∧ 600 ≤ v ∧ v ≤ 780
      (¬ ok → Ignores (.avsTempStep up) s) ∧
      (ok → ∃ t, exec (.avsTempStep up) s = .next t ∧ t.rd PWR.VCORE_TARGET = v ∧ OneMore s t PWR.AVS_REQ_CNT ∧ KeepsPath s t ∧
        ∀ a, a ≠ PWR.VCORE_TARGET → a ≠ PWR.AVS_REQ_CNT → t.rd a = s.rd a)) ∧
    (∀ bkup : Bool,
      (s.sys.pins.vaonMain = false → Ignores (.vaonMainLoss bkup) s) ∧
      (s.sys.pins.vaonMain = true → ∃ t, exec (.vaonMainLoss bkup) s = .next t ∧ t.sys.pins.vaonMain = false ∧
        t.rd PWR.MAIN_LOSS_TICKNO = s.tickno % 2 ^ 48 ∧ t.bit PWR.FLAGS 1 = true ∧ KeepsPath s t ∧
        (bkup = true → t.bit PWR.FLAGS 0 = true ∧ OneMore s t PWR.SWITCH_CNT) ∧
        (bkup = false → t.bit PWR.FLAGS 0 = s.bit PWR.FLAGS 0 ∧ t.rd PWR.SWITCH_CNT = s.rd PWR.SWITCH_CNT))) ∧
    (∃ t, exec .vaonMainReturn s = .next t ∧ t.sys.pins.vaonMain = true ∧ t.bit PWR.FLAGS 0 = false ∧ KeepsPath s t ∧
      ∀ a, a ≠ PWR.FLAGS → t.rd a = s.rd a) ∧
    (∀ pg : Fin 3, ∃ t, exec (.powerGoodLoss pg) s = .next t ∧
      (pg = 0 → t.sys.pins.pgCore = false) ∧ (pg = 1 → t.sys.pins.pgAna = false) ∧ (pg = 2 → t.sys.pins.pgHv = false) ∧
      (s.sys.power.supplyOff = true → t.regs = s.regs ∧ KeepsPath s t) ∧
      (s.sys.power.supplyOff = false → s.rd PWR.STATE < 2 → s.sys.power.cold = 0 →
        t.bit OBS.FAULT_STAT 4 = true ∧ t.bit PWR.FLAGS 5 = true ∧ OneMore s t PWR.SUPPLY_FAULT_CNT ∧ t.rd BDAC.HOLD = 0xFFFFFF ∧
        (pg = 2 → t.rd (PWR.DOM_STATE 88) = 0 ∧ t.rx = s.rx ∧ t.spi = s.spi) ∧
        (pg ≠ 2 → t.sys.power.supplyOff = true ∧ t.sys.mcState = 0 ∧ t.spi = .reset ∧ t.i2c = .reset ∧ t.tenon = .reset ∧
          (∀ i < 96, t.rd (PWR.DOM_STATE i) = if i = 93 then 1 else 0) ∧ ∀ i < 40, t.rd (PWR.CLK_STATE i) = 0)) ∧
      (s.sys.power.supplyOff = false → s.rd PWR.STATE = 2 → s.sys.power.wake = 0 → s.sys.power.waiting = false → pg = 0 →
        t.rd PWR.STATE = 3 ∧ t.bit PWR.FLAGS 6 = true ∧ t.bit OBS.FAULT_STAT 4 = true)) ∧
    (∀ pg : Fin 3, ∃ t, exec (.powerGoodReturn pg) s = .next t ∧ KeepsPath s t ∧
      (pg = 0 → t.sys.pins.pgCore = true ∧ t.regs = s.regs) ∧ (pg = 1 → t.sys.pins.pgAna = true ∧ t.regs = s.regs) ∧
      (pg = 2 → t.sys.pins.pgHv = true ∧
        (s.rd PWR.STATE < 2 → s.sys.power.supplyOff = false → s.rd (PWR.DOM_STATE 87) = 1 → t.rd (PWR.DOM_STATE 88) = 1))) ∧
    (s.sys.power.supplyOff = false → Ignores .supplyRecovery s) ∧
    (s.sys.power.supplyOff = true → ∃ t, exec .supplyRecovery s = .next t ∧ ColdWake s t 64 ∧ t.sys.pins.pgCore = true ∧
      t.sys.pins.pgAna = true ∧ t.sys.pins.pgHv = true ∧ t.sys.power.supplyOff = false)

/-! ### Resets and cold starts -/

namespace Sys2Proof.Spec

open Sys2Proof.Machine

/-- RESET_N is low and its low time counts: neither a warm reset nor an escalation is recorded yet. -/
def HeldLow (s : State) : Prop := s.sys.pins.resetN = false ∧ s.sys.power.escalated = false

/-- Step `k` of the cold start has begun (Table 15-3). -/
def AtStep (t : State) (k : Nat) : Prop := t.sys.power.cold = k ∧ t.rd RST.BOOT_STEP = k

/-- A voltage read back within 15 mV of its target. -/
def NearTarget (target reading : Nat) : Prop := target ≤ reading + 15 ∧ reading ≤ target + 15

end Sys2Proof.Spec

/-- Resets and cold starts. -/
def Obligations.ResetsAndColdStart : Prop :=
  ∀ s : State,
    let p := s.sys.power
    (∃ t, exec .powerOnReset s = .next t ∧ t.tickno = 0 ∧ t.rd RST.CAUSE = 1 ∧ t.log.map (·.code) = [0x5101] ∧
      (∀ a, isFused a = true → t.rd a = s.rd a) ∧
      (∀ a, isFused a = false →
        a ∉ [PWR.DOM_STATE 93, PWR.CLK_STATE 41, RST.FLAGS, RST.BOOT_STEP, OBS.FAULT_STAT, OBS.LOG_SEQ] → t.rd a = resetVal a) ∧
      t.rx = State.reset.rx ∧ t.tx = State.reset.tx ∧ t.host = State.reset.host ∧ t.ctxT = State.reset.ctxT ∧
      t.shpT = State.reset.shpT ∧ t.joiners = State.reset.joiners ∧ t.doms = State.reset.doms ∧ t.spi = .reset ∧
      t.i2c = .reset ∧ t.tenon = .reset ∧ t.longOps = [] ∧ t.sys.images.flash = s.sys.images.flash ∧
      t.sys.images.keys = s.sys.images.keys ∧ t.sys.txDis = s.sys.txDis ∧ t.sys.mcState = 0 ∧
      (s.sys.pins.resetN = true → AtStep t 1) ∧ (s.sys.pins.resetN = false → t.sys.power.cold = 0)) ∧
    (∃ t, exec .resetNAssert s = .next t ∧ t.sys.pins.resetN = false ∧ t.regs = s.regs ∧ t.sys.power = p ∧ KeepsPath s t ∧
      KeepsRequests s t ∧ KeepsLog s t ∧ KeepsTick s t) ∧
    (s.sys.pins.resetN = true ∨ p.warm = true ∨ p.escalated = true → Ignores .warmResetRecognised s) ∧
    (HeldLow s → p.warm = false →
      (s.rd PWR.STATE < 2 → p.entry = 0 → p.cold = 0 → p.supplyOff = false → s.sys.mcState ≠ 0 →
        ∃ t, exec .warmResetRecognised s = .next t ∧ t.sys.power.warm = true ∧ OneMore s t RST.WARM_CNT ∧
          t.rd RST.WARM_LANES = s.upMask ∧ t.rd PWR.STATE = 0 ∧ t.sys.mcState = 3 ∧ t.sys.lanesIdle = true ∧
          t.tickno = s.tickno ∧ t.spi = .reset ∧ t.i2c = .reset ∧ t.tenon = .reset ∧ t.longOps = [] ∧ t.lanes = [] ∧
          t.loads = [] ∧ t.unit = none ∧
          (∀ d < 2, (t.jn d).dm = (s.jn d).dm ∧ (t.dom d).staged = [] ∧ (t.dom d).commit = none ∧
            ((s.servJ 0 = d ∨ s.servJ 1 = d) → t.rd (JNR.STATE d) = 3)) ∧
          (∀ n < 8, s.lineUp n = true → t.rd (LRX.STATE n) = (if s.rd (LRX.STATE n) = 5 then 5 else 4) ∧
            (t.txL n).gated = true ∧ t.rd (LTX.STATE n) ≠ 2) ∧
          ∀ k < 16, s.hostUp k = true → t.rd (HRX.STATE k) = if s.rd (HRX.STATE k) = 6 then 6 else 5) ∧
      (Settled s → s.rd PWR.STATE = 2 → s.tooHot = false → ∃ t, exec .warmResetRecognised s = .next t ∧
        t.sys.power.warm = true ∧ OneMore s t RST.WARM_CNT ∧ t.sys.power.wake = 1 ∧ t.rd PWR.WAKE_SRC = 32 ∧ t.rx = s.rx)) ∧
    (s.sys.pins.resetN = true ∨ p.escalated = true → Ignores .resetEscalation s) ∧
    (HeldLow s → ∃ t, exec .resetEscalation s = .next t ∧ t.tickno = 0 ∧ OneMore s t RST.COLD_CNT ∧
      t.rd RST.CAUSE = s.rd RST.CAUSE % 4 + 4 ∧ t.sys.power.escalated = true ∧ t.sys.power.cold = 0 ∧ t.sys.mcState = 0 ∧
      (∀ a, isHealth a = true → t.rd a = s.rd a) ∧ t.rx = State.reset.rx ∧ t.tx = State.reset.tx ∧ t.joiners = State.reset.joiners ∧
      (s.recent = [] → ∃ e ∈ t.log, e.cont = true ∧ e.data = le 6 s.tickno)) ∧
    (∃ t, exec .resetNRelease s = .next t ∧ t.sys.pins.resetN = true ∧ t.sys.power.warm = false ∧ t.sys.power.escalated = false ∧
      KeepsPath s t ∧
      (p.escalated = true → AtStep t 1) ∧
      (p.escalated = false → p.warm = true → t.bit RST.CAUSE 1 = true) ∧
      (p.escalated = false → p.cold = 2 → t.sys.power.cold = 2 ∧
        t.rd RST.TRIM_ATTEMPTS = if p.warm then 0 else s.rd RST.TRIM_ATTEMPTS) ∧
      (p.escalated = false → p.warm = true → p.cold ≠ 2 → s.sys.mcState = 3 → t.sys.power.restart = some true) ∧
      (p.escalated = false → Settled s → s.sys.mcState = 0 → s.rd PWR.STATE = 0 → p.supplyOff = false → AtStep t 1)) ∧
    (∀ crc : Bool,
      (p.cold ≠ 2 ∨ p.warm = true ∨ 3 ≤ s.rd RST.TRIM_ATTEMPTS → Ignores (.trimLoadComplete crc) s) ∧
      (p.cold = 2 → p.warm = false → s.rd RST.TRIM_ATTEMPTS < 3 →
        ∃ t, exec (.trimLoadComplete crc) s = .next t ∧ t.rd RST.TRIM_ATTEMPTS = s.rd RST.TRIM_ATTEMPTS + 1 ∧
          (crc = true → t.bit RST.FLAGS 0 = true ∧ t.bit OBS.FAULT_STAT 3 = false ∧ AtStep t 3 ∧ OneMore s t PWR.AVS_REQ_CNT ∧
            ∀ k < 16, t.rd (PWR.DOM_STATE (56 + k)) = 1) ∧
          (crc = false → t.sys.power = p ∧ t.bit RST.FLAGS 0 = s.bit RST.FLAGS 0 ∧
            (s.rd RST.TRIM_ATTEMPTS = 2 → t.bit OBS.FAULT_STAT 3 = true) ∧
            (s.rd RST.TRIM_ATTEMPTS < 2 → ∀ a, a ≠ RST.TRIM_ATTEMPTS → t.rd a = s.rd a)))) ∧
    (∀ ok : Bool,
      (ok = true ∨ s.bit RST.FLAGS 0 = false ∨ s.bit RST.FLAGS 1 = true → Ignores (.trimRecheck ok) s) ∧
      (ok = false → s.bit RST.FLAGS 0 = true → s.bit RST.FLAGS 1 = false → ∃ t, exec (.trimRecheck ok) s = .next t ∧
        t.bit RST.FLAGS 1 = true ∧ t.bit RST.FLAGS 0 = true ∧ t.bit OBS.FAULT_STAT 3 = true ∧ KeepsPath s t ∧
        ∀ b ∈ [0x10, 0x11, 0x12, 0x13, 0x20, 0x21, 0x30, 0x40, 0x41, 0x42], ∀ a, blkOf a = b → t.rd a = s.rd a)) ∧
    (∀ (role src : BitVec 2) (aonOk : Bool),
      (p.waiting = true ∨ p.cold ∉ [1, 3, 4, 7] → Ignores (.coldStartStepDone role src aonOk) s) ∧
      (p.waiting = false → p.cold ∈ [1, 3, 4, 7] → ∃ t, exec (.coldStartStepDone role src aonOk) s = .next t ∧
        (p.cold = 1 → AtStep t 2 ∧ t.rd DEV.ROLE = role.toNat ∧ t.rd DEV.BOOT_SRC = src.toNat ∧ t.rd RST.TRIM_ATTEMPTS = 0 ∧
          t.rd (TEN.EN 0) = (if role = 2 then 1 else 0) ∧ t.rd (TEN.EN 1) = if role = 1 ∨ role = 2 then 1 else 0) ∧
        (p.cold = 3 → AtStep t 4 ∧ t.sys.pins.pgCore = true ∧ t.sys.pins.pgAna = true ∧ t.sys.pins.pgHv = true ∧
          (15 ≤ s.rd PWR.VCORE_TARGET → s.rd PWR.VCORE_TARGET < 60000 →
            NearTarget (s.rd PWR.VCORE_TARGET) (t.rd PWR.VCORE_MEAS))) ∧
        (p.cold = 4 → (∀ i ∈ [82, 83, 84, 85, 86, 89, 92], t.rd (PWR.DOM_STATE i) = 1) ∧
          (s.newest imgHealth = none → aonOk = true →
            (s.bit RST.PAIR_USABLE 0 = true → AtStep t 6 ∧ t.sys.mcState = 1 ∧ t.rd DEV.SERVING_DIE = 0) ∧
            (s.bit RST.PAIR_USABLE 0 = false → s.bit RST.PAIR_USABLE 2 = true →
              AtStep t 6 ∧ t.sys.mcState = 1 ∧ t.rd DEV.SERVING_DIE = 1) ∧
            (s.bit RST.PAIR_USABLE 0 = false → s.bit RST.PAIR_USABLE 2 = false →
              AtStep t 5 ∧ t.sys.mcState = 5 ∧ (s.rd (TEN.EN 0) = 0 → s.rd (TEN.EN 1) = 0 → t.bit OBS.FAULT_STAT 5 = true))) ∧
          (s.newest imgHealth = none → aonOk = false → t.bit RST.FLAGS 2 = true ∧ t.rd RST.PAIR_USABLE = 15 ∧ AtStep t 6)) ∧
        (p.cold = 7 → AtStep t 8 ∧ t.sys.refcal = some ⟨false, none⟩ ∧
          (p.fromSleep = true ∨ s.sys.txDis = true ∨ s.sys.thermShut = true → t.rd BDAC.HOLD = 0xFFFFFF) ∧
          t.rd (PWR.DOM_STATE 87) = 1 ∧ t.rd (PWR.DOM_STATE 88) = 1))) ∧
    ∀ which : Fin 8,
      (p.waiting = true ∨ waitRefuser true p.cold which.val = none → Ignores (.coldStartStepTimeout which) s) ∧
      ∀ c, p.waiting = false → waitRefuser true p.cold which.val = some c →
        ∃ t, exec (.coldStartStepTimeout which) s = .next t ∧ OneMore s t (PWR.REFUSE_CNT c) ∧ OneMore s t PWR.WAKE_ABORT_CNT ∧
          t.rd PWR.STATE = 3 ∧ t.sys.mcState = 0 ∧
          (p.tries < s.rd PWR.WAKE_RETRIES → t.sys.power.waiting = true ∧ t.bit PWR.FLAGS 4 = true ∧ t.sys.power.cold = p.cold) ∧
          (s.rd PWR.WAKE_RETRIES ≤ p.tries → t.sys.power.cold = 0 ∧ t.sys.power.waiting = false ∧ t.sys.power.mask = 0x18)

/-! ### Firmware, the boot commit, the watchdog and activation -/

namespace Sys2Proof.Spec

open Sys2Proof.Machine

/-- No request waits for the controller (R301). -/
def NoneWaits (s : State) : Prop := ∀ v, ∀ w ∈ (s.trans v).waiting, w.fresh = true

/-- The long-running operation of a request has ended, every other one goes on. -/
def EndsOp (s t : State) (r : ReqRef) : Prop :=
  (∀ o ∈ t.longOps, o.ref.rid ≠ r.rid) ∧ ∀ o ∈ s.longOps, o.ref.rid ≠ r.rid → o ∈ t.longOps

/-- The lanes, the tables and the commit domains are as before. -/
def TrafficGoesOn (s t : State) : Prop :=
  t.rx = s.rx ∧ t.tx = s.tx ∧ t.host = s.host ∧ t.ctxT = s.ctxT ∧ t.shpT = s.shpT ∧ t.doms = s.doms

end Sys2Proof.Spec

/-- Firmware in service. -/
def Obligations.FirmwareServesAndActivates : Prop :=
  ∀ s : State,
    let p := s.sys.power
    let m := s.sys.images
    (∀ readable : Bool,
      (p.cold ≠ 6 → Ignores (.firmwareVerified readable) s) ∧
      (p.cold = 6 → readable = true →
        (∀ img seq copy, s.bootImg 0 = some (img, seq, copy) → ∃ t, exec (.firmwareVerified readable) s = .next t ∧ AtStep t 7 ∧
          t.sys.recovery = false ∧ t.bit RST.FLAGS 6 = false ∧ t.rd RST.FW_COPY = copy % 4 ∧ t.rd DEV.FW_SEQ = seq % 2 ^ 32 ∧
          t.sys.images.version = getLe img 12 4 ∧ t.sys.images.svn = getLe img 7 1 ∧ TrafficGoesOn s t) ∧
        (s.bootImg 0 = none → s.rd DEV.ROLE ≠ 2 → s.sys.recovery = false →
          ∃ t, exec (.firmwareVerified readable) s = .next t ∧ t.sys.recovery = true ∧ t.sys.mcState = 1 ∧ t.sys.power.cold = 6 ∧
            KeepsPath s t))) ∧
    (p.cold ≠ 6 ∨ s.linkBoot = false ∨ s.portUp 0 = true → Ignores .tenonBootTimeout s) ∧
    (p.cold = 6 → s.linkBoot = true → s.portUp 0 = false → s.sys.recovery = false →
      ∃ t, exec .tenonBootTimeout s = .next t ∧ t.sys.recovery = true ∧ t.sys.mcState = 1 ∧ t.sys.power.cold = 6 ∧ KeepsPath s t) ∧
    (∀ us : BitVec 32,
      (p.cold ≠ 9 ∨ s.sys.pins.testMode = true → Ignores (.bootCommit us) s) ∧
      (p.cold = 9 → s.sys.pins.testMode = false → NoneWaits s → ∃ t, exec (.bootCommit us) s = .next t ∧
        t.sys.mcState = 2 ∧ t.sys.power.cold = 0 ∧ t.rd DEV.CFG_GEN0 = 1 ∧ t.rd DEV.CFG_GEN1 = 1 ∧
        (s.bootImg 1 = none → t.rd DEV.BOOT_COMMIT = 2) ∧ t.rd PWR.STATE = 0 ∧
        (s.bootImg 2 = none → t.rd DEV.BUNDLE_SEQ = 0 ∧ t.sys.bundle = ⟨0, []⟩) ∧
        (p.fromSleep = true → t.rd PWR.LAST_WAKE_US = us.toNat ∧
          ∀ r ∈ p.refs, ⟨r, .ok, s.tickno % 65536, .data [0, byteOf p.tries], true⟩ ∈ (t.trans r.via).replies))) ∧
    (s.sys.mcState ≠ 2 → Ignores .watchdogExpiry s) ∧
    (s.sys.mcState = 2 → ∃ t, exec .watchdogExpiry s = .next t ∧ OneMore s t RST.WDT_CNT ∧ OneMore s t DEV.MC_RESTART_CNT ∧
      t.longOps = [] ∧ t.unit = none ∧ t.tickno = s.tickno ∧
      (let n := (p.wdt.filter fun x => decide (ticksSince s.tickno x < 60 * s.ticksPerSecond)).length + 1
       (s.rd RST.WDT_LIMIT ≤ n → t.sys.mcState = 5) ∧
       (n < s.rd RST.WDT_LIMIT → t.sys.mcState = 3 ∧ t.sys.power.restart = some false)) ∧
      (∀ d < 2, (t.dom d).staged = [] ∧ (t.dom d).held = [] ∧
        ∀ c, (s.dom d).commit = some c → (t.dom d).commit = if c.armed then some c else none) ∧
      ∀ v o, o.via = v → (s.trans v).outstanding = [o] → (s.trans v).waiting = [] → (s.trans v).replies = [] →
        (∀ v', v' ≠ v → (s.trans v').outstanding = []) → s.loads = [] → s.doms = [.reset, .reset] →
        (t.trans v).replies = [⟨o, .hwFault, s.tickno % 65536, .err "MC_RESTART" 0xFFFFFFFF 0, true⟩]) ∧
    (p.restart = none ∨ p.warm = true → Ignores .controllerRestartDone s) ∧
    (∀ warm, p.restart = some warm → p.warm = false →
      (s.sys.recovery = false → s.bit RST.FLAGS 6 = false → NoneWaits s → ∃ t, exec .controllerRestartDone s = .next t ∧
        (s.sys.pins.testMode = false → t.sys.mcState = 2) ∧ t.sys.power.restart = none ∧ t.doms = s.doms ∧
        (warm = false → t.regs = s.regs ∧ t.lanes = s.lanes) ∧
        (warm = true → ∀ d < 2, (s.servJ 0 = d ∨ s.servJ 1 = d) → s.rd (JNR.STATE d) = 3 → t.rd (JNR.STATE d) = 2) ∧
        (warm = true → s.split = false → s.rd RST.WARM_LANES ≠ 0 → s.sys.thermShut = false → s.noJoiner = false →
          ∃ q ∈ t.lanes, q.up = true ∧ q.ref = none ∧ q.line + 256 * q.host = s.rd RST.WARM_LANES)) ∧
      (s.sys.recovery = true → s.bit RST.FLAGS 6 = false → s.newest 0 ≠ none → ∃ t, exec .controllerRestartDone s = .next t ∧
        t.sys.recovery = false ∧ AtStep t 7)) ∧
    (let due := s.sys.mcState = 2 ∧ m.lockSvn = true ∧ 3600 * s.ticksPerSecond ≤ ticksSince s.tickno p.serveT
     (¬ due → Ignores .svnFloorRaise s) ∧
     (due → ∃ t, exec .svnFloorRaise s = .next t ∧ t.rd RST.SVN_FLOOR = max (s.rd RST.SVN_FLOOR) m.svn % 64 ∧
       ∀ a, a ≠ RST.SVN_FLOOR → t.rd a = s.rd a)) ∧
    (m.act = none → Ignores .activationPause s ∧ Ignores .activationTimeout s ∧ ∀ ms, Ignores (.activationServe ms) s) ∧
    ∀ a, m.act = some a →
      (a.q ≠ none → Ignores .activationPause s) ∧
      (a.q = none → Ignores .activationTimeout s ∧ ∀ ms, Ignores (.activationServe ms) s) ∧
      (a.q = none →
        (s.actImg a = none → ∃ t nm, exec .activationPause s = .next t ∧ nm ∈ ["IMAGE_CRC", "SIGNATURE", "SEQUENCE"] ∧
          LastReply t a.ref .denied (.err nm 0xFFFFFFFF 0) ∧ t.sys.images.act = none ∧ EndsOp s t a.ref ∧ TrafficGoesOn s t) ∧
        (∀ x, s.actImg a = some x → x.2.2 ≤ s.rd DEV.FW_SEQ → ∃ t, exec .activationPause s = .next t ∧
          LastReply t a.ref .precondition (.err "NO_NEWER" 0xFFFFFFFF 0) ∧ t.sys.images.act = none ∧ EndsOp s t a.ref ∧
          TrafficGoesOn s t) ∧
        (∀ x, s.actImg a = some x → s.rd DEV.FW_SEQ < x.2.2 → (∃ d ∈ s.doms, d.commit ≠ none) →
          ∃ t, exec .activationPause s = .next t ∧ LastReply t a.ref .busy (.err "COMMIT_PEND" 0xFFFFFFFF 0) ∧
            t.sys.images.act = none ∧ EndsOp s t a.ref ∧ TrafficGoesOn s t) ∧
        (∀ x, s.actImg a = some x → s.rd DEV.FW_SEQ < x.2.2 → (∀ d ∈ s.doms, d.commit = none) →
          ∃ t, exec .activationPause s = .next t ∧ t.sys.mcState = 4 ∧
          t.sys.images.act = some { a with q := some s.tickno } ∧ TrafficGoesOn s t ∧ KeepsRequests s t ∧
          ∀ d < 2, (t.jn d).dm = (s.jn d).dm ∧
            ((s.servJ 0 = d ∨ s.servJ 1 = d) → t.rd (JNR.STATE d) = 3 ∧ t.bit (JNR.FLAGS d) 4 = true))) ∧
      (a.q ≠ none → NoneWaits s →
        (∀ (ms : BitVec 16) (img : List Byte) (copy seq : Nat), s.actImg a = some (img, copy, seq) →
          ∃ t, exec (.activationServe ms) s = .next t ∧ (s.sys.pins.testMode = false → t.sys.mcState = 2) ∧ t.sys.images.act = none ∧
            OneMore s t RST.ACTIVATE_CNT ∧ t.rd RST.ACT_PAUSE_MS = ms.toNat ∧ t.rd DEV.FW_SEQ = seq % 2 ^ 32 ∧
            t.sys.images.trial = some (a.copy, a.old) ∧ LastReply t a.ref .ok (.data (le 4 seq ++ le 4 ms.toNat)) ∧
            EndsOp s t a.ref ∧ (s.pubs = [] → TrafficGoesOn s t) ∧
            ∀ d < 2, (s.servJ 0 = d ∨ s.servJ 1 = d) → t.bit (JNR.FLAGS d) 4 = false) ∧
        ∃ t, exec .activationTimeout s = .next t ∧ (s.sys.pins.testMode = false → t.sys.mcState = 2) ∧ t.sys.images.act = none ∧ t.bit RST.FLAGS 3 = true ∧
          (a.copy < 2 → t.copySeq 0 a.copy = none) ∧ LastReply t a.ref .hwFault (.err "FW_START" 0xFFFFFFFF 0) ∧
          EndsOp s t a.ref ∧ (s.pubs = [] → TrafficGoesOn s t))

/-! ### Images, the health record, the self-test, keys and the test port -/

namespace Sys2Proof.Spec

open Sys2Proof.Machine

/-- Only the test port has changed: its instruction, the register it shows and the drive of the pins (R432). -/
def OnlyTestPort (s t : State) (inst dr : Nat) (drive : Bool) : Prop :=
  t.sys.jtag.inst = inst ∧ t.sys.jtag.dr = dr ∧ t.sys.jtag.drive = drive ∧ t.sys.jtag.cleared = s.sys.jtag.cleared ∧
    t.regs = s.regs ∧ KeepsPath s t ∧ KeepsRequests s t ∧ KeepsLog s t ∧ KeepsTick s t

/-- What a private test-port instruction does before it takes effect or is refused (R432). -/
def HeldInReset (t : State) : Prop :=
  t.sys.mcState = 3 ∧ t.rd (PWR.DOM_STATE 90) = 0 ∧ t.spi = .reset ∧ t.i2c = .reset ∧ t.tenon = .reset ∧ t.longOps = []

end Sys2Proof.Spec

/-- Images and what is fused or tested; the signature value is left open (log 7). -/
def Obligations.ImagesHealthKeysAndTestPort : Prop :=
  ∀ s : State,
    let m := s.sys.images
    (∀ late fault : Bool,
      ((m.write.bind fun w => w.seg) = none → Ignores (.imageWriteDone late fault) s) ∧
      ∀ w g, m.write = some w → w.seg = some g → ∃ t, exec (.imageWriteDone late fault) s = .next t ∧ EndsOp s t g.ref ∧
        TrafficGoesOn s t ∧
        (late = true → LastReply t g.ref .timeout (.err "FLASH" 0xFFFFFFFF 0) ∧ t.sys.images.write = none) ∧
        (late = false → fault = true → LastReply t g.ref .hwFault (.err "FLASH" 0xFFFFFFFF 0) ∧ t.sys.images.write = none) ∧
        (late = false → fault = false → g.last = false → LastReply t g.ref .ok (.data []) ∧
          t.sys.images.write = some { w with seg := none } ∧
          (g.first = true → g.offset + g.data.length ≤ (copyArea w.image w.copy).2 →
            t.flashAt ((copyArea w.image w.copy).1 + g.offset) g.data.length = g.data)) ∧
        (late = false → fault = false → g.last = true → t.sys.images.write = none ∧
          ((∃ nm ∈ ["IMAGE_CRC", "SIGNATURE", "SEQUENCE"], LastReply t g.ref .denied (.err nm 0xFFFFFFFF 0) ∧
              t.copySeq w.image w.copy = none) ∨
            ∃ q, LastReply t g.ref .ok (.data ([byteOf w.copy, 0, 0, 0] ++ le 4 q)) ∧ t.copySeq w.image w.copy = some q))) ∧
    (∀ fault : Bool,
      ((m.recipe.bind fun w => w.ref) = none → Ignores (.recipeBundleVerified fault) s) ∧
      ∀ w r, m.recipe = some w → w.ref = some r → ∃ t, exec (.recipeBundleVerified fault) s = .next t ∧ EndsOp s t r ∧
        t.sys.images.recipe = none ∧ t.rd DEV.BUNDLE_SEQ = s.rd DEV.BUNDLE_SEQ ∧ t.sys.bundle = s.sys.bundle ∧
        (fault = true → LastReply t r .hwFault (.err "FLASH" 0xFFFFFFFF 0) ∧ t.doms = s.doms) ∧
        (fault = false → w.source = 3 → s.imageFault 2 w.bytes = none → ∃ b, (t.dom w.domain).bundle = some b ∧
          b.sections = (bundleOf 0 (imgBody w.bytes)).sections ∧
          LastReply t r .ok (.data (le 4 b.seq ++ [byteOf b.sections.length, 1]))) ∧
        ∀ nm, fault = false → w.source = 3 → s.imageFault 2 w.bytes = some nm →
          LastReply t r .denied (.err nm 0xFFFFFFFF 0) ∧ t.doms = s.doms) ∧
    (s.bit RST.FLAGS 5 = false ∨ s.sys.mcState ≠ 2 → Ignores .healthMirrorWrite s) ∧
    (s.bit RST.FLAGS 5 = true → s.sys.mcState = 2 → s.noFlash = false → ∃ t, exec .healthMirrorWrite s = .next t ∧
      t.bit RST.FLAGS 5 = false ∧ KeepsPath s t ∧ (∃ c < 2, t.flashAt ((copyArea imgHealth c).1 + 64) 1024 = s.healthBody) ∧
      ∀ a, 0x2000 ≤ a → spGet 0xFF t.sys.images.flash a = spGet 0xFF m.flash a) ∧
    (∀ (cut : Bool) (pass : BitVec 66),
      (s.sys.selfTest = none → Ignores (.selftestSliceEnd cut pass) s ∧ ∀ ok, Ignores (.selftestHandover cut ok) s) ∧
      ∀ q, s.sys.selfTest = some q →
        (45 ≤ q.slice → Ignores (.selftestSliceEnd cut pass) s) ∧
        (q.slice ≠ 45 → ∀ ok, Ignores (.selftestHandover cut ok) s) ∧
        (q.slice < 44 → ∃ t, exec (.selftestSliceEnd cut pass) s = .next t ∧ t.sys.selfTest = some ⟨q.slice + 1, q.ref⟩ ∧
          (cut = true → OneMore s t RST.ST_SKIPPED ∧ ∀ a, a ≠ RST.ST_SKIPPED → t.rd a = s.rd a) ∧
          (cut = false → t.rd RST.ST_SKIPPED = s.rd RST.ST_SKIPPED ∧ t.bit RST.FLAGS 5 = true ∧
            (let k := sliceUnits q.slice
             t.rd RST.ST_TESTED = (s.rd RST.ST_TESTED + k) % 65536 ∧
             t.rd RST.ST_FAILED = (s.rd RST.ST_FAILED + ((List.range k).filter fun u => !pass.getLsbD u).length) % 65536) ∧
            (q.slice < 8 → ∀ u < 66, t.bit66 (sliceHealth q.slice) u = pass.getLsbD u) ∧
            (8 ≤ q.slice → q.slice < 16 → t.rd (LTX.SUBDAC_HEALTH (q.slice - 8)) = pass.toNat % 16) ∧
            (16 ≤ q.slice → q.slice < 24 → ∀ u < 66, t.bit66 (healthAddr .ctx (q.slice - 16)) u = pass.getLsbD u) ∧
            (24 ≤ q.slice → q.slice < 32 → ∀ u < 66, t.bit66 (healthAddr .shp (q.slice - 24)) u = pass.getLsbD u) ∧
            (32 ≤ q.slice → q.slice < 40 → t.rd (FEC.EVAL_HEALTH (q.slice - 32)) = pass.toNat % 2 ^ 34) ∧
            (40 ≤ q.slice → q.slice < 42 → t.rd (RST.SIMD_HEALTH (q.slice - 40)) = pass.toNat % 2 ^ 32) ∧
            (42 ≤ q.slice → t.bit RST.PAIR_USABLE (2 * (q.slice - 42) + 1) = decide (pass.toNat % 4 = 3)))) ∧
        (q.slice = 45 → ∀ (ok : Bool) r, q.ref = some r → ∃ t, exec (.selftestHandover cut ok) s = .next t ∧
          t.sys.selfTest = none ∧ t.sys.mcState = 6 ∧ t.rd RST.ST_TICKNO = s.tickno % 2 ^ 48 ∧ EndsOp s t r ∧
          LastReply t r .ok (.data (le 2 (t.rd RST.ST_TESTED) ++ le 2 (t.rd RST.ST_FAILED))) ∧
          (cut = false → s.rd DEV.SERVING_DIE < 2 → t.bit RST.PAIR_USABLE (2 * s.rd DEV.SERVING_DIE) = ok)) ∧
        (q.slice = 45 → ∀ ok : Bool, q.ref = none → s.sys.power.entryTo = 3 → ∃ t, exec (.selftestHandover cut ok) s = .next t ∧
          t.sys.selfTest = none ∧ Stopped s t 3)) ∧
    (∀ (slot : Fin 4) (hash : BitVec 384),
      (slot = 0 ∨ s.bit RST.KEY_STATE slot.val = true → Ignores (.ownerKey slot hash) s) ∧
      (slot ≠ 0 → s.bit RST.KEY_STATE slot.val = false → ∃ t, exec (.ownerKey slot hash) s = .next t ∧
        (∀ i < 8, t.bit RST.KEY_STATE i = (s.bit RST.KEY_STATE i || i == slot.val)) ∧ t.keyHash slot.val = hash ∧
        (∀ i < 4, i ≠ slot.val → t.keyHash i = s.keyHash i) ∧ (∀ a, a ≠ RST.KEY_STATE → t.rd a = s.rd a) ∧ KeepsPath s t) ∧
      (slot = 0 ∨ s.bit RST.KEY_STATE slot.val = false → Ignores (.revokeKey slot) s) ∧
      (slot ≠ 0 → s.bit RST.KEY_STATE slot.val = true → ∃ t, exec (.revokeKey slot) s = .next t ∧
        (∀ i < 8, t.bit RST.KEY_STATE i = (s.bit RST.KEY_STATE i || i == 4 + slot.val)) ∧
        (∀ a, a ≠ RST.KEY_STATE → t.rd a = s.rd a) ∧ KeepsPath s t)) ∧
    (∃ t, exec .jtagIdcode s = .next t ∧ OnlyTestPort s t 1 0x13208A3D false) ∧
    (∃ t, exec .jtagBypass s = .next t ∧ OnlyTestPort s t 2 0 false) ∧
    (∀ pins load : Nat, ∃ t, exec (.jtagSamplePreload pins load) s = .next t ∧ OnlyTestPort s t 3 pins false ∧
      t.sys.jtag.preload = load) ∧
    (∀ pins : Nat, ∃ t, exec (.jtagExtest pins) s = .next t ∧ OnlyTestPort s t 4 pins true ∧
      t.sys.jtag.preload = s.sys.jtag.preload) ∧
    (∀ zero : Bool, ∀ x ∈ [(Instr.scanEn zero, 5), (Instr.mbistEn zero, 6), (Instr.dbgEn zero, 7)],
      ∃ t, exec x.1 s = .next t ∧ HeldInReset t ∧
        (zero = false → t.sys.jtag = s.sys.jtag) ∧
        (zero = true → t.sys.jtag.inst = x.2 ∧ t.sys.jtag.cleared = true ∧
          (s.sys.jtag.cleared = false → t.bit RST.FLAGS 4 = true) ∧ (x.2 = 7 → t.rd (PWR.DOM_STATE 91) = 1))) ∧
    (∀ r : Request, Served s r → r.params.length = 48 →
      (s.sys.jtag.cleared = true → ∃ t, exec (.identify r) s = .next t ∧
        Answers s t 0x01 r .denied true (.err "TEST_MODE" 0xFFFFFFFF 0)) ∧
      (s.sys.jtag.cleared = false → s.opRuns 0x01 = true → ∃ t, exec (.identify r) s = .next t ∧
        Answers s t 0x01 r .busy true (.err "LONG_OP" 0xFFFFFFFF 0)) ∧
      (s.sys.jtag.cleared = false → s.opRuns 0x01 = false → ∃ t, exec (.identify r) s = .next t ∧
        AnswersAccepted s t 0x01 r [] ∧ t.longOps.length = s.longOps.length + 1 ∧ t.opRuns 0x01 = true ∧
        t.sys.images.sign = m.sign ++ [(s.refFor 0x01 r, s.identity)])) ∧
    (m.sign = [] → Ignores .attestationSignDone s) ∧
    ∀ (rf : ReqRef) (rec : List Byte) (rest : List (ReqRef × List Byte)), m.sign = (rf, rec) :: rest →
      ∃ t sig, exec .attestationSignDone s = .next t ∧ sig.length = 96 ∧ EndsOp s t rf ∧ t.sys.images.sign = rest ∧
        (t.trans rf.via).replies = (s.trans rf.via).replies ++ [⟨rf, .ok, s.tickno % 65536, .data (rec ++ sig), true⟩]

/-! ### The Tenon link: ports, delay and time -/

namespace Sys2Proof.Spec

open Sys2Proof.Machine

/-- A port sends exactly this control block, where it is UP (R441). -/
def Sends (s t : State) (p : Nat) (b : List Byte) : Prop :=
  s.portUp p = true → (t.port p).blocks = (s.port p).blocks ++ [b]

/-- Only the Tenon link has changed beside the fields of these addresses: the rest of the block is as before. -/
def OnlyTenon (s t : State) (fs : List Nat) : Prop :=
  KeepsPath s t ∧ KeepsRequests s t ∧ KeepsTick s t ∧ ∀ a, a ∉ fs → t.rd a = s.rd a

/-- A training of a port has begun at step 1 of Table 16-4 (R443). -/
def Trains (s t : State) (p : Nat) : Prop :=
  t.rd (TEN.STATE p) = 1 ∧ (t.port p).step = 1 ∧ (t.port p).waiting = false ∧ OneMore s t (TEN.TRAIN_CNT p)

/-- A training has failed: counted, and retried after 10 ms (R443). -/
def TrainFails (s t : State) (p : Nat) : Prop :=
  t.rd (TEN.STATE p) = 4 ∧ (t.port p).waiting = true ∧ OneMore s t (TEN.TRAIN_FAIL_CNT p)

end Sys2Proof.Spec

/-- The link and its time. -/
def Obligations.TenonLinkAndTime : Prop :=
  ∀ s : State,
    let n := s.sys.ten
    (∀ (p : Port) (inv0 inv1 swap dir : Bool),
      let c := Instr.tenTrainStepDone p inv0 inv1 swap dir
      (s.rd (TEN.STATE p.val) ≠ 1 → Ignores c s) ∧
      (s.rd (TEN.STATE p.val) = 1 → ∃ t, exec c s = .next t ∧ KeepsPath s t ∧
        (1 ≤ (s.port p.val).step → (s.port p.val).step ≤ 4 → (t.port p.val).step = (s.port p.val).step + 1 ∧ t.rd (TEN.STATE p.val) = 1) ∧
        ((s.port p.val).step = 4 → t.bit (TEN.FLAGS p.val) 2 = inv0 ∧ t.bit (TEN.FLAGS p.val) 3 = inv1 ∧
          t.bit (TEN.FLAGS p.val) 4 = swap) ∧
        ((s.port p.val).step = 5 → dir = decide (p.val = 1) → TrainFails s t p.val) ∧
        ((s.port p.val).step = 5 → dir ≠ decide (p.val = 1) → (t.port p.val).step = 6) ∧
        ((s.port p.val).step = 6 → t.rd (TEN.STATE p.val) = 2 ∧ (t.port p.val).step = 0 ∧
          (p.val = 0 → s.rd (TEN.CHAIN_STATE 0) ≤ 1 → t.rd (TEN.CHAIN_STATE 0) = 2) ∧
          (p.val = 1 → s.rd DEV.ROLE = 1 → (t.port 1).blocks = (s.port 1).blocks ++ [block 0x66 [1]])))) ∧
    (∀ p : Port,
      (s.rd (TEN.STATE p.val) ≠ 1 → Ignores (.tenTrainTimeout p) s) ∧
      (s.rd (TEN.STATE p.val) = 1 → ∃ t, exec (.tenTrainTimeout p) s = .next t ∧ TrainFails s t p.val ∧ KeepsPath s t ∧
        ((s.port p.val).step = 2 → t.bit (TEN.FLAGS p.val) 6 = true) ∧
        ((s.port p.val).step ≠ 2 → t.rd (TEN.FLAGS p.val) = s.rd (TEN.FLAGS p.val))) ∧
      ((s.port p.val).waiting = false ∨ s.rd (TEN.EN p.val) ≠ 1 → Ignores (.tenRetrainDelay p) s) ∧
      ((s.port p.val).waiting = true → s.rd (TEN.EN p.val) = 1 → ∃ t, exec (.tenRetrainDelay p) s = .next t ∧
        Trains s t p.val ∧ KeepsPath s t)) ∧
    (∀ (p : Port) (lol : Bool),
      (s.portUp p.val = false → Ignores (.tenLinkLoss p lol) s) ∧
      (s.portUp p.val = true → ∃ t, exec (.tenLinkLoss p lol) s = .next t ∧ Trains s t p.val ∧ KeepsPath s t ∧
        (s.bit (TEN.FLAGS p.val) 5 = true → t.rd (TEN.LINK_DOWN_CNT p.val) = s.rd (TEN.LINK_DOWN_CNT p.val)) ∧
        (s.bit (TEN.FLAGS p.val) 5 = false → OneMore s t (TEN.LINK_DOWN_CNT p.val) ∧ t.bit (TEN.FLAGS p.val) lol.toNat = true ∧
          (p.val = 1 → s.rd DEV.ROLE = 1 → t.rd (TEN.CHAIN_LEN 1) = 0 ∧ t.rd (TEN.PRESENT 1) = 0)) ∧
        (p.val = 0 → t.sys.ten.load = none) ∧
        (p.val = 0 → s.joined = true → t.rd (TEN.CHAIN_STATE 0) = 5 ∧ t.sys.ten.adj = 0))) ∧
    (s.rafterUp = false → Ignores .probeSend s) ∧
    (s.rafterUp = true → ∃ t, exec .probeSend s = .next t ∧ Sends s t 0 (block 0x4B [n.probe]) ∧
      t.sys.ten.probing = some n.probe ∧ t.sys.ten.probe = (n.probe + 1) % 256 ∧ OnlyTenon s t []) ∧
    (∀ (q : Byte) (turn : BitVec 24),
      (s.portUp 1 = false → Ignores (.probeBlock q turn) s) ∧
      ∃ t, exec (.probeBlock q turn) s = .next t ∧ OnlyTenon s t [] ∧
        Sends s t 1 (block 0x55 [q.toNat, turn.toNat % 256, turn.toNat / 256 % 256, turn.toNat / 65536])) ∧
    (∀ (q : Byte) (turn : BitVec 24) (trip : BitVec 32),
      (s.rafterUp = false ∨ n.probing ≠ some q.toNat → Ignores (.echoBlock q turn trip) s) ∧
      (s.rafterUp = true → n.probing = some q.toNat → ∃ t, exec (.echoBlock q turn trip) s = .next t ∧
        t.sys.ten.probing = none ∧ t.sys.ten.samples.length = min 256 (n.samples.length + 1) ∧
        OnlyTenon s t [TEN.LINK_DELAY 0, TEN.RTT 0] ∧
        ∀ d : Nat, n.samples = [] → (trip.toNat : Int) - turn.toNat + 2 * s.rdS (TEN.ASYM_COMP 0) = 2 * d → d < 2 ^ 24 →
          trip.toNat < 2 ^ 24 → t.rd (TEN.LINK_DELAY 0) = d ∧ t.rd (TEN.RTT 0) = trip.toNat)) ∧
    (∀ (offset : BitVec 24) (ridge : Bool) (hops : BitVec 5) (no : BitVec 24) (near since : Int) (residence : BitVec 24),
      let c := Instr.tickBlock offset ridge hops no near since residence
      let err : Int := (offset.toNat : Int) + s.rd (TEN.LINK_DELAY 0) - since
      let own := (((s.tickno : Int) + near) % (2 ^ 48 : Nat)).toNat
      let agree := own % 2 ^ 24 = no.toNat ∧ ∀ x, n.time = some x → x.1 = own
      let half := 850 * err.natAbs ≤ 24576 * (1 + s.rate 0)
      let small := 425 * err.natAbs ≤ s.rd (TEN.SLEW_MAX 0) * (24576 * (1 + s.rate 0))
      (s.rafterUp = false → Ignores c s) ∧
      (s.rafterUp = true → ∃ t, exec c s = .next t ∧ t.sys.ten.time = none ∧
        (-(2 : Int) ^ 31 ≤ err → err < 2 ^ 31 → t.rdS (TEN.ALIGN_ERR 0) = err) ∧
        (t.joined = true → s.portUp 1 = true → (t.port 1).blocks.getLast? =
          some (tickBlock (offset.toNat + s.rd (TEN.LINK_DELAY 0) + residence.toNat)
            (decide (t.rd (TEN.CHAIN_STATE 0) = 4)) (hops.toNat + 1) no.toNat)) ∧
        (s.joined = true → (¬ agree ∨ ridge = false) → t.rd (TEN.CHAIN_STATE 0) = 5) ∧
        (s.joined = true → agree → ridge = true →
          (half → t.rd (TEN.CHAIN_STATE 0) = 4 ∧ t.sys.ten.adj = n.adj) ∧
          (¬ half → t.rd (TEN.CHAIN_STATE 0) = s.rd (TEN.CHAIN_STATE 0) ∧ OneMore s t (TEN.TICK_ADJ_CNT 0) ∧
            t.sys.ten.adj.natAbs ≤ 8 ∧ (0 < err → t.sys.ten.adj ≤ 0) ∧ (err < 0 → 0 ≤ t.sys.ten.adj))) ∧
        (s.rd (TEN.CHAIN_STATE 0) = 2 → n.loaded = false → s.upMask = 0 → s.rd (TEN.ADDR 0) ≠ 0 → ridge = true →
          ∀ x, n.time = some x → t.rd (TEN.CHAIN_STATE 0) = 2 ∧ t.tickno = s.tickno ∧
            t.sys.ten.load = some ((((x.1 : Int) - near) % 2 ^ 48).toNat, false)) ∧
        (s.rd (TEN.CHAIN_STATE 0) = 5 → s.rd (TEN.ADDR 0) ≠ 0 → ridge = true → n.owed = true → n.resync.isSome = true →
          s.upMask = 0 → ∀ x, n.time = some x → t.rd (TEN.CHAIN_STATE 0) = 5 ∧ t.tickno = s.tickno ∧
            t.sys.ten.load = some ((((x.1 : Int) - near) % 2 ^ 48).toNat, true)) ∧
        (s.rd (TEN.CHAIN_STATE 0) = 5 → s.rd (TEN.ADDR 0) ≠ 0 → ridge = true → n.owed = false →
          (agree → small → t.rd (TEN.CHAIN_STATE 0) = 3 ∧ t.sys.ten.slewing = true ∧ t.tickno = s.tickno) ∧
          (¬ (agree ∧ small) → n.time = none → t.rd (TEN.CHAIN_STATE 0) = 5 ∧ t.tickno = s.tickno ∧
            (s.rd (TEN.RESYNC_POL 0) = 0 → t.sys.ten.owed = true ∧
              (s.upMask ≠ 0 → ∃ q ∈ t.lanes, q.up = false ∧ q.ref = none ∧ q.line + 256 * q.host = s.upMask)) ∧
            (s.rd (TEN.RESYNC_POL 0) ≠ 0 → s.sys.resyncGo = false → t.lanes = s.lanes ∧ t.sys.ten.owed = false))))) ∧
    (∀ (no : BitVec 48) (mode : BitVec 2),
      let c := Instr.timeBlock no mode
      (s.rafterUp = false → Ignores c s) ∧
      (s.rafterUp = true → mode.toNat = s.rate 0 → ∃ t, exec c s = .next t ∧ t.sys.ten.time = some (no.toNat, mode.toNat) ∧
        OnlyTenon s t [] ∧ (s.joined = true → Sends s t 1 (timeBlock no.toNat mode.toNat))) ∧
      (s.rafterUp = true → mode.toNat ≠ s.rate 0 →
        ((s.rd (TEN.CHAIN_STATE 0) = 6 ∨ s.rd (TEN.CHAIN_STATE 0) < 2) → Ignores c s) ∧
        (s.rd (TEN.CHAIN_STATE 0) ≠ 6 → 2 ≤ s.rd (TEN.CHAIN_STATE 0) → ∃ t, exec c s = .next t ∧
          t.rd (TEN.CHAIN_STATE 0) = 6 ∧ t.sys.ten.owed = true ∧ t.sys.ten.adj = 0 ∧ t.sys.ten.time = none ∧ KeepsPath s t))) ∧
    (ticksSince s.tickno n.lastTick < 4 ∨ s.joined = false → Ignores .tickTimeout s) ∧
    (4 ≤ ticksSince s.tickno n.lastTick → s.joined = true → ∃ t, exec .tickTimeout s = .next t ∧
      t.rd (TEN.CHAIN_STATE 0) = 5 ∧ t.sys.ten.adj = 0 ∧ t.sys.ten.slewing = false ∧ KeepsPath s t) ∧
    (n.join = none → Ignores .joinWaitExpiry s) ∧
    (∀ l h w, n.join = some (l, h, w) → ∃ t, exec .joinWaitExpiry s = .next t ∧ t.sys.ten.join = none ∧
      (w = false → s.split = false → (l ≠ 0 ∨ h ≠ 0) → s.sys.thermShut = false → s.noJoiner = false →
        ∃ q ∈ t.lanes, q.up = true ∧ q.ref = none ∧ q.line = l ∧ q.host = h)) ∧
    (∀ (err : Int) (off : Nat),
      (s.rd (TEN.TSYNC_MODE 0) ≠ 2 → Ignores (.tickSyncEdge err off) s) ∧
      (s.rd (TEN.TSYNC_MODE 0) = 2 → ∃ t, exec (.tickSyncEdge err off) s = .next t ∧ t.bit (TEN.FLAGS 0) 7 = false ∧
        t.sys.ten.lastEdge = s.tickno ∧ OnlyTenon s t [TEN.FLAGS 0, TEN.TSYNC_REALIGN_CNT 0, TEN.TICK_ADJ_CNT 0] ∧
        (1024 < off → OneMore s t (TEN.TSYNC_REALIGN_CNT 0)) ∧
        (off ≤ 1024 → t.rd (TEN.TSYNC_REALIGN_CNT 0) = s.rd (TEN.TSYNC_REALIGN_CNT 0)) ∧
        (850 * err.natAbs ≤ 24576 * (1 + s.rate 0) → t.sys.ten.adj = n.adj) ∧
        (24576 * (1 + s.rate 0) < 850 * err.natAbs → OneMore s t (TEN.TICK_ADJ_CNT 0) ∧ t.sys.ten.adj.natAbs ≤ 8))) ∧
    (let lost := s.rd (TEN.TSYNC_MODE 0) = 2 ∧ s.bit (TEN.FLAGS 0) 7 = false ∧
       2 * 2 ^ s.rd (TEN.TSYNC_DIV 0) ≤ ticksSince s.tickno n.lastEdge
     (¬ lost → Ignores .tickSyncLoss s) ∧
     (lost → ∃ t, exec .tickSyncLoss s = .next t ∧ t.bit (TEN.FLAGS 0) 7 = true ∧ KeepsPath s t))

/-! ### What travels through a chain -/

namespace Sys2Proof.Spec

open Sys2Proof.Machine

/-- A port sends exactly this message, where it is UP (R442). -/
def SendsMsg (s t : State) (p : Nat) (m : TenMsg) : Prop :=
  s.portUp p = true → (t.port p).msgs = (s.port p).msgs ++ [m]

/-- A message or block is counted as bad and discarded (R441, R442). -/
def CountsBad (s t : State) (p : Nat) : Prop := OneMore s t (TEN.MSG_ERR_CNT p) ∧ OnlyTenon s t [TEN.MSG_ERR_CNT p] ∧ t.sys.ten = s.sys.ten

/-- A rafter of the chain, by address (Table 16-3). -/
def IsRafter (a : Byte) : Prop := 1 ≤ a.toNat ∧ a.toNat ≤ 31

/-- A forwarded request without its first reply in time (R456, R462). -/
def Overdue (s : State) (f : Fwd) : Prop :=
  (f.wake = true ∨ f.replied = false) ∧
    reached s.tickno (addTicks f.sent (s.msTicks (s.rd (TEN.FWD_TIMEOUT_MS 1) + if f.wake then 1500 else 0))) = true

end Sys2Proof.Spec

/-- Messages and blocks. -/
def Obligations.TenonMessages : Prop :=
  ∀ s : State,
    let n := s.sys.ten
    let own := s.rd (TEN.ADDR 0)
    let ridge := s.rd DEV.ROLE ≠ 2
    (∀ a : Byte,
      (s.rafterUp = false ∨ a = 0 ∨ 32 < a.toNat → Ignores (.enumBlock a) s) ∧
      (s.rafterUp = true → a = 32 → ∃ t, exec (.enumBlock a) s = .next t ∧ t.rd (TEN.ADDR 0) = 0 ∧ KeepsPath s t ∧
        (t.port 1).blocks = (s.port 1).blocks ∧ (s.rd (TEN.CHAIN_STATE 0) ≤ 2 → t.rd (TEN.CHAIN_STATE 0) = 2)) ∧
      (s.rafterUp = true → IsRafter a → ∃ t, exec (.enumBlock a) s = .next t ∧ t.rd (TEN.ADDR 0) = a.toNat ∧ KeepsPath s t ∧
        Sends s t 1 (block 0x66 [a.toNat + 1]) ∧
        (s.portUp 1 = true → block 0x69 [max a.toNat (s.rd (TEN.CHAIN_LEN 1))] ∈ (t.port 0).blocks))) ∧
    (∀ h : Byte,
      (s.portUp 1 = false ∨ 31 < h.toNat → Ignores (.enumAckBlock h) s) ∧
      (s.portUp 1 = true → h.toNat ≤ 31 → s.rd DEV.ROLE = 1 → ∃ t, exec (.enumAckBlock h) s = .next t ∧
        t.rd (TEN.CHAIN_LEN 1) = h.toNat ∧ t.rd (TEN.PRESENT 1) = 2 ^ (h.toNat + 1) - 2 ∧ KeepsPath s t ∧
        ∀ f, n.fwd = [f] → h.toNat < f.addr → f.addr < 32 → s.rd (TEN.PRESENT 1) ≠ 2 ^ (h.toNat + 1) - 2 →
          LastReply t f.ref .timeout (.err "RAFTER_LOST" 0xFFFFFFFF 0) ∧ OneMore s t (TEN.FWD_TIMEOUT_CNT 1) ∧ t.sys.ten.fwd = []) ∧
      (s.portUp 1 = true → h.toNat ≤ 31 → s.rd DEV.ROLE = 2 → own ≠ 0 → ∃ t, exec (.enumAckBlock h) s = .next t ∧
        t.rd (TEN.CHAIN_LEN 1) = h.toNat ∧ OnlyTenon s t [TEN.CHAIN_LEN 1] ∧
        (s.rd (TEN.CHAIN_LEN 1) ≠ h.toNat → Sends s t 0 (block 0x69 [max own h.toNat])))) ∧
    (∀ (dst src : Byte) (bytes : List Byte),
      (s.rafterUp = false → ∀ ok, Ignores (.tenRequestMessage dst src ok bytes) s) ∧
      (s.rafterUp = true → ∃ t, exec (.tenRequestMessage dst src false bytes) s = .next t ∧ CountsBad s t 0) ∧
      (s.rafterUp = true → own ≠ 0 → dst.toNat = own → dst ≠ 0xFF →
        exec (.tenRequestMessage dst src true bytes) s = exec (.packetWrite .tenon bytes) s) ∧
      (s.rafterUp = true → dst ≠ 0xFF → own = 0 ∨ dst.toNat < own → Ignores (.tenRequestMessage dst src true bytes) s) ∧
      (s.rafterUp = true → own ≠ 0 → own < dst.toNat → dst ≠ 0xFF → ∃ t, exec (.tenRequestMessage dst src true bytes) s = .next t ∧
        SendsMsg s t 1 ⟨dst.toNat, src.toNat, 0, bytes⟩ ∧ OnlyTenon s t [])) ∧
    (∀ (src : Byte) (bytes : List Byte),
      (s.portUp 1 = false → ∀ ok, Ignores (.tenReplyMessage src ok bytes) s ∧ Ignores (.telemetryMessage src ok bytes) s) ∧
      (s.portUp 1 = true → (∃ t, exec (.tenReplyMessage src false bytes) s = .next t ∧ CountsBad s t 1) ∧
        ∃ t, exec (.telemetryMessage src false bytes) s = .next t ∧ CountsBad s t 1) ∧
      (s.portUp 1 = true → s.rd DEV.ROLE = 2 →
        (∃ t, exec (.tenReplyMessage src true bytes) s = .next t ∧ SendsMsg s t 0 ⟨0, src.toNat, 1, bytes⟩ ∧ OnlyTenon s t []) ∧
        ∃ t, exec (.telemetryMessage src true bytes) s = .next t ∧ SendsMsg s t 0 ⟨0, src.toNat, 2, bytes⟩ ∧ OnlyTenon s t []) ∧
      (s.portUp 1 = true → ridge →
        (n.fwd = [] → ∃ t, exec (.tenReplyMessage src true bytes) s = .next t ∧ KeepsRequests s t ∧ KeepsPath s t ∧
          t.bit (TEN.ASLEEP 1) src.toNat = false) ∧
        (∀ (f : Fwd) (st : Status) (tick : Nat) (b : Body) (fin : Bool), n.fwd = [f] → f.addr = src.toNat → f.ref.op < 256 →
          tick < 65536 → b.bytes.length < 65536 → bytes = (⟨f.ref, st, tick, b, fin⟩ : Reply).bytes →
          ∃ t, exec (.tenReplyMessage src true bytes) s = .next t ∧
            (t.trans f.ref.via).replies =
              (s.trans f.ref.via).replies ++ [⟨f.ref, st, tick, .data (f.ref.pre ++ b.bytes), decide (st ≠ .accepted)⟩] ∧
            t.sys.ten.fwd = if st = .accepted then [{ f with replied := true }] else []) ∧
        (¬ IsRafter src → Ignores (.telemetryMessage src true bytes) s) ∧
        (IsRafter src → ∃ t, exec (.telemetryMessage src true bytes) s = .next t ∧ t.bit (TEN.TELEM_LATE 1) src.toNat = false ∧
          t.bit (TEN.ASLEEP 1) src.toNat = false ∧ KeepsPath s t ∧
          ∀ w < 8, t.rd (TEN.RAFTER_STATUS 1 (8 * (src.toNat - 1) + w)) = getLe bytes (8 * w) 8))) ∧
    ((∀ f ∈ n.fwd, ¬ Overdue s f) → Ignores .fwdTimeout s) ∧
    (∀ f, n.fwd = [f] → Overdue s f → ∃ t, exec .fwdTimeout s = .next t ∧ t.sys.ten.fwd = [] ∧
      OneMore s t (TEN.FWD_TIMEOUT_CNT 1) ∧ LastReply t f.ref .timeout (.err "RAFTER_SILENT" 0xFFFFFFFF 0) ∧ KeepsPath s t) ∧
    (¬ (s.joined = true ∧ s.tickno % 1024 = 0) → Ignores .telemetrySend s) ∧
    (s.joined = true → s.tickno % 1024 = 0 → ∃ t, exec .telemetrySend s = .next t ∧ SendsMsg s t 0 ⟨0, own, 2, s.statusBlock⟩ ∧
      OnlyTenon s t []) ∧
    (∃ t, exec .telemLate s = .next t ∧ OnlyTenon s t [TEN.TELEM_LATE 1] ∧ ∀ a < 32, t.bit (TEN.TELEM_LATE 1) a =
      (s.bit (TEN.TELEM_LATE 1) a || (s.bit (TEN.PRESENT 1) a && decide (4096 ≤ ticksSince s.tickno (spGet 0 n.telem a))))) ∧
    (∀ a b12 b13 : Byte,
      (s.portUp 1 = false → Ignores (.alarmBlock a b12 b13) s ∧ Ignores (.sleepNoteBlock a b12) s) ∧
      (s.portUp 1 = true → s.rd DEV.ROLE = 2 →
        (∃ t, exec (.alarmBlock a b12 b13) s = .next t ∧ Sends s t 0 (block 0x96 [a.toNat, b12.toNat, b13.toNat]) ∧ OnlyTenon s t []) ∧
        ∃ t, exec (.sleepNoteBlock a b12) s = .next t ∧ Sends s t 0 (block 0x99 [a.toNat, b12.toNat]) ∧
          OnlyTenon s t [TEN.FLAGS 1] ∧ (a.toNat = own + 1 → t.bit (TEN.FLAGS 1) 5 = true)) ∧
      (s.portUp 1 = true → ridge → ¬ IsRafter a → Ignores (.alarmBlock a b12 b13) s) ∧
      (s.portUp 1 = true → ridge → IsRafter a →
        (∃ t, exec (.alarmBlock a b12 b13) s = .next t ∧ t.bit (TEN.ALARM 1) a.toNat = true ∧ KeepsPath s t ∧
          (s.recent = [] → s.bit OBS.IRQ_LEVEL_MASK 5 = true → t.bit OBS.IRQ_STAT 1 = true ∧ ∃ e ∈ t.log, e.code = 0x6003 ∧ e.detail = a.toNat)) ∧
        ∃ t, exec (.sleepNoteBlock a b12) s = .next t ∧ t.bit (TEN.ASLEEP 1) a.toNat = true ∧ KeepsPath s t ∧
          (a = 1 → t.bit (TEN.FLAGS 1) 5 = true) ∧
          ∀ f, n.fwd = [f] → f.addr = a.toNat → f.replied = false → f.wake = false →
            LastReply t f.ref .busy (.err "ASLEEP" 0xFFFFFFFF b12.toNat) ∧ t.sys.ten.fwd = [])) ∧
    (∀ a : Byte,
      (s.rd (TEN.STATE 0) ≠ 3 ∨ a.toNat < own → Ignores (.tenonWakeBlock a) s) ∧
      (s.rd (TEN.STATE 0) = 3 → own ≤ a.toNat → Settled s → s.rd PWR.STATE = 2 → s.tooHot = false →
        ∃ t, exec (.tenonWakeBlock a) s = .next t ∧ t.sys.power.wake = 1 ∧ t.rd PWR.WAKE_SRC = 4 ∧
          (own < a.toNat → (t.port 1).waking = some a.toNat ∧ block 0xA5 [a.toNat] ∈ (t.port 1).blocks))) ∧
    (∀ (a : Byte) (wanted : BitVec 3),
      let c := Instr.bootReqBlock a wanted
      (s.portUp 1 = false ∨ (ridge ∧ s.sys.mcState ≠ 2) → Ignores c s) ∧
      (s.portUp 1 = true → s.rd DEV.ROLE = 2 → ∃ t, exec c s = .next t ∧ Sends s t 0 (block 0xB4 [a.toNat, wanted.toNat]) ∧
        OnlyTenon s t []) ∧
      (s.portUp 1 = true → ridge → s.sys.mcState = 2 → (∀ k < 3, s.newest k = none) → Ignores c s) ∧
      ∀ ty < 3, ∀ k q, s.portUp 1 = true → ridge → s.sys.mcState = 2 → wanted.toNat = 2 ^ ty → s.newest ty = some (k, q) →
        ∃ t, exec c s = .next t ∧ OnlyTenon s t [] ∧ (t.port 1).msgs = (s.port 1).msgs ++
          streamOf (if ty = 2 then a.toNat else 0xFF) ty (s.copyImg ty k ++ s.copyTrailer ty k)) ∧
    (∀ (dst : Byte) (bytes : List Byte),
      (s.rafterUp = false → ∀ ok, Ignores (.imageStreamMessage dst ok bytes) s) ∧
      (s.rafterUp = true → ∃ t, exec (.imageStreamMessage dst false bytes) s = .next t ∧ CountsBad s t 0) ∧
      (s.rafterUp = true → own ≠ 0 → ∃ t, exec (.imageStreamMessage dst true bytes) s = .next t ∧
        ((dst = 0xFF ∨ own < dst.toNat) → SendsMsg s t 1 ⟨dst.toNat, 0, 3, bytes⟩) ∧
        ((dst ≠ 0xFF ∧ dst.toNat < own) ∨ n.wanted = 0 → t.regs = s.regs ∧ t.sys.ten.pieces = n.pieces ∧ KeepsPath s t) ∧
        ((dst = 0xFF ∨ dst.toNat = own) → getLe bytes 0 1 < 3 → n.wanted.testBit (getLe bytes 0 1) = true →
          (let ty := getLe bytes 0 1
           let m := spFill 0xFF (s.pieces ty) (getLe bytes 2 4) ((bytes.drop 8).map BitVec.toNat)
           getLe bytes 2 4 + (bytes.drop 8).length < imgLen ty ((List.range 64).map fun i => byteOf (spGet 0xFF m i)) + 16 →
             t.pieces ty = m ∧ t.sys.ten.wanted = n.wanted ∧ t.regs = s.regs)))) ∧
    (¬ (s.sys.recovery = true ∧ s.linkBoot = true ∧ s.portUp 0 = true) → Ignores .bootReqResend s) ∧
    (s.sys.recovery = true → s.linkBoot = true → s.portUp 0 = true → ∃ t, exec .bootReqResend s = .next t ∧
      t.sys.ten.wanted = s.wantMask ∧ t.sys.ten.pieces = [] ∧ Sends s t 0 (block 0xB4 [own, s.wantMask]) ∧ OnlyTenon s t []) ∧
    ∀ p : Port,
      (s.portUp p.val = false → Ignores (.tenBlockDiscarded p) s) ∧
      (s.portUp p.val = true → ∃ t, exec (.tenBlockDiscarded p) s = .next t ∧ CountsBad s t p.val)
end

