-- ==== Sys2Proof/Laws/Memory.lean ====
section
/-!
SUPPORT. The memories of the block: every operation on a Joiner data memory and on the flash keeps the canonical form, and
a byte read after a write is the byte written, every other byte as before.
-/

namespace Sys2Proof.Machine

/-! ### Joiner data memory -/

theorem spWf_dmPut {m : List (Nat × Nat)} (h : spWf 0 m = true) (a n v : Nat) : spWf 0 (dmPut m a n v) = true := by
  induction n generalizing m a v with
  | zero => exact h
  | succ n ih => exact ih (spWf_spSet h a _) _ _
theorem spWf_dmPutV {m : List (Nat × Nat)} (h : spWf 0 m = true) (a : Nat) (l : List Half) : spWf 0 (dmPutV m a l) = true := by
  induction l generalizing m a with
  | nil => exact h
  | cons x xs ih => exact ih (spWf_dmPut h a 2 _) _
theorem spWf_dmPutHalves {m : List (Nat × Nat)} (h : spWf 0 m = true) (a : Nat) (l : List Nat) :
    spWf 0 (dmPutHalves m a l) = true := by
  induction l generalizing m a with
  | nil => exact h
  | cons x xs ih => exact ih (spWf_dmPut h a 2 _) _
theorem spWf_dmPutStamp {m : List (Nat × Nat)} (h : spWf 0 m = true) (a i e t g : Nat) :
    spWf 0 (dmPutStamp m a i e t g) = true :=
  spWf_dmPut (spWf_dmPut (spWf_dmPut (spWf_dmPut h _ _ _) _ _ _) _ _ _) _ _ _

/-- A store leaves every byte outside the bytes it stores. -/
theorem dmPut_frame (m : List (Nat × Nat)) (a n v : Nat) {b : Nat} (h : b < a ∨ a + n ≤ b) :
    spGet 0 (dmPut m a n v) b = spGet 0 m b := by
  induction n generalizing m a v with
  | zero => rfl
  | succ n ih =>
    rw [dmPut, ih _ _ _ (by omega), spGet_spSet_ne _ _ _ (by omega)]
/-- Byte `i` of a store, low byte first (R241). -/
theorem dmPut_byte (m : List (Nat × Nat)) (a n v : Nat) {i : Nat} (h : i < n) :
    spGet 0 (dmPut m a n v) (a + i) = v / 256 ^ i % 256 := by
  induction n generalizing m a v i with
  | zero => omega
  | succ n ih =>
    rw [dmPut]
    cases i with
    | zero => rw [dmPut_frame _ _ _ _ (by omega)]; simpa using spGet_spSet_same 0 m a (v % 256)
    | succ i =>
      have := ih (spSet 0 m a (v % 256)) (a + 1) (v / 256) (i := i) (by omega)
      rw [show a + (i + 1) = a + 1 + i by omega, this, Nat.div_div_eq_div_mul, Nat.pow_succ, Nat.mul_comm 256]

/-! ### Flash -/

/-- Programming a run of flash bytes keeps the canonical form. -/
theorem spWf_flashPut (s : State) (a : Nat) (bs : List Byte) (h : spWf 0xFF s.sys.images.flash = true) :
    spWf 0xFF (s.flashPut a bs).sys.images.flash = true := by
  have key : ∀ (l : List Nat) (f : List (Nat × Nat)), spWf 0xFF f = true →
      spWf 0xFF (l.foldl (fun f i => spSet 0xFF f (a + i) (spGet 0xFF f (a + i) &&& (bs.getD i 0).toNat)) f) = true := by
    intro l
    induction l with
    | nil => intro f hf; exact hf
    | cons x xs ih => intro f hf; exact ih _ (spWf_spSet hf _ _)
  exact key _ _ h

end Sys2Proof.Machine
end

