-- ==== Sys2Proof/Laws/State.lean ====
section
/-!
SUPPORT. What each update of State leaves alone: one lemma per field and update, true by rfl.
-/

namespace Sys2Proof.Machine

/-! ### State.wr -/

@[simp] theorem State.wr_pending (s : State) (a v : Nat) : (s.wr a v).pending = s.pending := rfl
@[simp] theorem State.wr_tickno (s : State) (a v : Nat) : (s.wr a v).tickno = s.tickno := rfl
@[simp] theorem State.wr_tickAdj (s : State) (a v : Nat) : (s.wr a v).tickAdj = s.tickAdj := rfl
@[simp] theorem State.wr_tick1 (s : State) (a v : Nat) : (s.wr a v).tick1 = s.tick1 := rfl
@[simp] theorem State.wr_free (s : State) (a v : Nat) : (s.wr a v).free = s.free := rfl
@[simp] theorem State.wr_image0 (s : State) (a v : Nat) : (s.wr a v).image0 = s.image0 := rfl
@[simp] theorem State.wr_image1 (s : State) (a v : Nat) : (s.wr a v).image1 = s.image1 := rfl
@[simp] theorem State.wr_seq0 (s : State) (a v : Nat) : (s.wr a v).seq0 = s.seq0 := rfl
@[simp] theorem State.wr_seq1 (s : State) (a v : Nat) : (s.wr a v).seq1 = s.seq1 := rfl
@[simp] theorem State.wr_rx (s : State) (a v : Nat) : (s.wr a v).rx = s.rx := rfl
@[simp] theorem State.wr_tx (s : State) (a v : Nat) : (s.wr a v).tx = s.tx := rfl
@[simp] theorem State.wr_host (s : State) (a v : Nat) : (s.wr a v).host = s.host := rfl
@[simp] theorem State.wr_ctxT (s : State) (a v : Nat) : (s.wr a v).ctxT = s.ctxT := rfl
@[simp] theorem State.wr_shpT (s : State) (a v : Nat) : (s.wr a v).shpT = s.shpT := rfl
@[simp] theorem State.wr_track (s : State) (a v : Nat) : (s.wr a v).track = s.track := rfl
@[simp] theorem State.wr_taps (s : State) (a v : Nat) : (s.wr a v).taps = s.taps := rfl
@[simp] theorem State.wr_doms (s : State) (a v : Nat) : (s.wr a v).doms = s.doms := rfl
@[simp] theorem State.wr_live (s : State) (a v : Nat) : (s.wr a v).live = s.live := rfl
@[simp] theorem State.wr_loads (s : State) (a v : Nat) : (s.wr a v).loads = s.loads := rfl
@[simp] theorem State.wr_mgmt (s : State) (a v : Nat) : (s.wr a v).mgmt = s.mgmt := rfl
@[simp] theorem State.wr_unit (s : State) (a v : Nat) : (s.wr a v).unit = s.unit := rfl
@[simp] theorem State.wr_asked (s : State) (a v : Nat) : (s.wr a v).asked = s.asked := rfl
@[simp] theorem State.wr_lanes (s : State) (a v : Nat) : (s.wr a v).lanes = s.lanes := rfl
@[simp] theorem State.wr_spi (s : State) (a v : Nat) : (s.wr a v).spi = s.spi := rfl
@[simp] theorem State.wr_i2c (s : State) (a v : Nat) : (s.wr a v).i2c = s.i2c := rfl
@[simp] theorem State.wr_tenon (s : State) (a v : Nat) : (s.wr a v).tenon = s.tenon := rfl
@[simp] theorem State.wr_nextRid (s : State) (a v : Nat) : (s.wr a v).nextRid = s.nextRid := rfl
@[simp] theorem State.wr_longOps (s : State) (a v : Nat) : (s.wr a v).longOps = s.longOps := rfl
@[simp] theorem State.wr_log (s : State) (a v : Nat) : (s.wr a v).log = s.log := rfl
@[simp] theorem State.wr_recent (s : State) (a v : Nat) : (s.wr a v).recent = s.recent := rfl
@[simp] theorem State.wr_suppr (s : State) (a v : Nat) : (s.wr a v).suppr = s.suppr := rfl
@[simp] theorem State.wr_die1Log (s : State) (a v : Nat) : (s.wr a v).die1Log = s.die1Log := rfl
@[simp] theorem State.wr_caps (s : State) (a v : Nat) : (s.wr a v).caps = s.caps := rfl
@[simp] theorem State.wr_hists (s : State) (a v : Nat) : (s.wr a v).hists = s.hists := rfl
@[simp] theorem State.wr_joiners (s : State) (a v : Nat) : (s.wr a v).joiners = s.joiners := rfl
@[simp] theorem State.wr_fifos (s : State) (a v : Nat) : (s.wr a v).fifos = s.fifos := rfl
@[simp] theorem State.wr_pubs (s : State) (a v : Nat) : (s.wr a v).pubs = s.pubs := rfl
@[simp] theorem State.wr_pubSwaps (s : State) (a v : Nat) : (s.wr a v).pubSwaps = s.pubSwaps := rfl
@[simp] theorem State.wr_sys (s : State) (a v : Nat) : (s.wr a v).sys = s.sys := rfl

/-! ### State.modRx -/

@[simp] theorem State.modRx_pending (s : State) (n : Nat) (f : RxLane → RxLane) : (s.modRx n f).pending = s.pending := rfl
@[simp] theorem State.modRx_regs (s : State) (n : Nat) (f : RxLane → RxLane) : (s.modRx n f).regs = s.regs := rfl
@[simp] theorem State.modRx_tickno (s : State) (n : Nat) (f : RxLane → RxLane) : (s.modRx n f).tickno = s.tickno := rfl
@[simp] theorem State.modRx_tickAdj (s : State) (n : Nat) (f : RxLane → RxLane) : (s.modRx n f).tickAdj = s.tickAdj := rfl
@[simp] theorem State.modRx_tick1 (s : State) (n : Nat) (f : RxLane → RxLane) : (s.modRx n f).tick1 = s.tick1 := rfl
@[simp] theorem State.modRx_free (s : State) (n : Nat) (f : RxLane → RxLane) : (s.modRx n f).free = s.free := rfl
@[simp] theorem State.modRx_image0 (s : State) (n : Nat) (f : RxLane → RxLane) : (s.modRx n f).image0 = s.image0 := rfl
@[simp] theorem State.modRx_image1 (s : State) (n : Nat) (f : RxLane → RxLane) : (s.modRx n f).image1 = s.image1 := rfl
@[simp] theorem State.modRx_seq0 (s : State) (n : Nat) (f : RxLane → RxLane) : (s.modRx n f).seq0 = s.seq0 := rfl
@[simp] theorem State.modRx_seq1 (s : State) (n : Nat) (f : RxLane → RxLane) : (s.modRx n f).seq1 = s.seq1 := rfl
@[simp] theorem State.modRx_tx (s : State) (n : Nat) (f : RxLane → RxLane) : (s.modRx n f).tx = s.tx := rfl
@[simp] theorem State.modRx_host (s : State) (n : Nat) (f : RxLane → RxLane) : (s.modRx n f).host = s.host := rfl
@[simp] theorem State.modRx_ctxT (s : State) (n : Nat) (f : RxLane → RxLane) : (s.modRx n f).ctxT = s.ctxT := rfl
@[simp] theorem State.modRx_shpT (s : State) (n : Nat) (f : RxLane → RxLane) : (s.modRx n f).shpT = s.shpT := rfl
@[simp] theorem State.modRx_track (s : State) (n : Nat) (f : RxLane → RxLane) : (s.modRx n f).track = s.track := rfl
@[simp] theorem State.modRx_taps (s : State) (n : Nat) (f : RxLane → RxLane) : (s.modRx n f).taps = s.taps := rfl
@[simp] theorem State.modRx_doms (s : State) (n : Nat) (f : RxLane → RxLane) : (s.modRx n f).doms = s.doms := rfl
@[simp] theorem State.modRx_live (s : State) (n : Nat) (f : RxLane → RxLane) : (s.modRx n f).live = s.live := rfl
@[simp] theorem State.modRx_loads (s : State) (n : Nat) (f : RxLane → RxLane) : (s.modRx n f).loads = s.loads := rfl
@[simp] theorem State.modRx_mgmt (s : State) (n : Nat) (f : RxLane → RxLane) : (s.modRx n f).mgmt = s.mgmt := rfl
@[simp] theorem State.modRx_unit (s : State) (n : Nat) (f : RxLane → RxLane) : (s.modRx n f).unit = s.unit := rfl
@[simp] theorem State.modRx_asked (s : State) (n : Nat) (f : RxLane → RxLane) : (s.modRx n f).asked = s.asked := rfl
@[simp] theorem State.modRx_lanes (s : State) (n : Nat) (f : RxLane → RxLane) : (s.modRx n f).lanes = s.lanes := rfl
@[simp] theorem State.modRx_spi (s : State) (n : Nat) (f : RxLane → RxLane) : (s.modRx n f).spi = s.spi := rfl
@[simp] theorem State.modRx_i2c (s : State) (n : Nat) (f : RxLane → RxLane) : (s.modRx n f).i2c = s.i2c := rfl
@[simp] theorem State.modRx_tenon (s : State) (n : Nat) (f : RxLane → RxLane) : (s.modRx n f).tenon = s.tenon := rfl
@[simp] theorem State.modRx_nextRid (s : State) (n : Nat) (f : RxLane → RxLane) : (s.modRx n f).nextRid = s.nextRid := rfl
@[simp] theorem State.modRx_longOps (s : State) (n : Nat) (f : RxLane → RxLane) : (s.modRx n f).longOps = s.longOps := rfl
@[simp] theorem State.modRx_log (s : State) (n : Nat) (f : RxLane → RxLane) : (s.modRx n f).log = s.log := rfl
@[simp] theorem State.modRx_recent (s : State) (n : Nat) (f : RxLane → RxLane) : (s.modRx n f).recent = s.recent := rfl
@[simp] theorem State.modRx_suppr (s : State) (n : Nat) (f : RxLane → RxLane) : (s.modRx n f).suppr = s.suppr := rfl
@[simp] theorem State.modRx_die1Log (s : State) (n : Nat) (f : RxLane → RxLane) : (s.modRx n f).die1Log = s.die1Log := rfl
@[simp] theorem State.modRx_caps (s : State) (n : Nat) (f : RxLane → RxLane) : (s.modRx n f).caps = s.caps := rfl
@[simp] theorem State.modRx_hists (s : State) (n : Nat) (f : RxLane → RxLane) : (s.modRx n f).hists = s.hists := rfl
@[simp] theorem State.modRx_joiners (s : State) (n : Nat) (f : RxLane → RxLane) : (s.modRx n f).joiners = s.joiners := rfl
@[simp] theorem State.modRx_fifos (s : State) (n : Nat) (f : RxLane → RxLane) : (s.modRx n f).fifos = s.fifos := rfl
@[simp] theorem State.modRx_pubs (s : State) (n : Nat) (f : RxLane → RxLane) : (s.modRx n f).pubs = s.pubs := rfl
@[simp] theorem State.modRx_pubSwaps (s : State) (n : Nat) (f : RxLane → RxLane) : (s.modRx n f).pubSwaps = s.pubSwaps := rfl
@[simp] theorem State.modRx_sys (s : State) (n : Nat) (f : RxLane → RxLane) : (s.modRx n f).sys = s.sys := rfl
@[simp] theorem State.modRx_rd (s : State) (n : Nat) (f : RxLane → RxLane) (b : Nat) : (s.modRx n f).rd b = s.rd b := rfl

/-! ### State.modTx -/

@[simp] theorem State.modTx_pending (s : State) (n : Nat) (f : TxLane → TxLane) : (s.modTx n f).pending = s.pending := rfl
@[simp] theorem State.modTx_regs (s : State) (n : Nat) (f : TxLane → TxLane) : (s.modTx n f).regs = s.regs := rfl
@[simp] theorem State.modTx_tickno (s : State) (n : Nat) (f : TxLane → TxLane) : (s.modTx n f).tickno = s.tickno := rfl
@[simp] theorem State.modTx_tickAdj (s : State) (n : Nat) (f : TxLane → TxLane) : (s.modTx n f).tickAdj = s.tickAdj := rfl
@[simp] theorem State.modTx_tick1 (s : State) (n : Nat) (f : TxLane → TxLane) : (s.modTx n f).tick1 = s.tick1 := rfl
@[simp] theorem State.modTx_free (s : State) (n : Nat) (f : TxLane → TxLane) : (s.modTx n f).free = s.free := rfl
@[simp] theorem State.modTx_image0 (s : State) (n : Nat) (f : TxLane → TxLane) : (s.modTx n f).image0 = s.image0 := rfl
@[simp] theorem State.modTx_image1 (s : State) (n : Nat) (f : TxLane → TxLane) : (s.modTx n f).image1 = s.image1 := rfl
@[simp] theorem State.modTx_seq0 (s : State) (n : Nat) (f : TxLane → TxLane) : (s.modTx n f).seq0 = s.seq0 := rfl
@[simp] theorem State.modTx_seq1 (s : State) (n : Nat) (f : TxLane → TxLane) : (s.modTx n f).seq1 = s.seq1 := rfl
@[simp] theorem State.modTx_rx (s : State) (n : Nat) (f : TxLane → TxLane) : (s.modTx n f).rx = s.rx := rfl
@[simp] theorem State.modTx_host (s : State) (n : Nat) (f : TxLane → TxLane) : (s.modTx n f).host = s.host := rfl
@[simp] theorem State.modTx_ctxT (s : State) (n : Nat) (f : TxLane → TxLane) : (s.modTx n f).ctxT = s.ctxT := rfl
@[simp] theorem State.modTx_shpT (s : State) (n : Nat) (f : TxLane → TxLane) : (s.modTx n f).shpT = s.shpT := rfl
@[simp] theorem State.modTx_track (s : State) (n : Nat) (f : TxLane → TxLane) : (s.modTx n f).track = s.track := rfl
@[simp] theorem State.modTx_taps (s : State) (n : Nat) (f : TxLane → TxLane) : (s.modTx n f).taps = s.taps := rfl
@[simp] theorem State.modTx_doms (s : State) (n : Nat) (f : TxLane → TxLane) : (s.modTx n f).doms = s.doms := rfl
@[simp] theorem State.modTx_live (s : State) (n : Nat) (f : TxLane → TxLane) : (s.modTx n f).live = s.live := rfl
@[simp] theorem State.modTx_loads (s : State) (n : Nat) (f : TxLane → TxLane) : (s.modTx n f).loads = s.loads := rfl
@[simp] theorem State.modTx_mgmt (s : State) (n : Nat) (f : TxLane → TxLane) : (s.modTx n f).mgmt = s.mgmt := rfl
@[simp] theorem State.modTx_unit (s : State) (n : Nat) (f : TxLane → TxLane) : (s.modTx n f).unit = s.unit := rfl
@[simp] theorem State.modTx_asked (s : State) (n : Nat) (f : TxLane → TxLane) : (s.modTx n f).asked = s.asked := rfl
@[simp] theorem State.modTx_lanes (s : State) (n : Nat) (f : TxLane → TxLane) : (s.modTx n f).lanes = s.lanes := rfl
@[simp] theorem State.modTx_spi (s : State) (n : Nat) (f : TxLane → TxLane) : (s.modTx n f).spi = s.spi := rfl
@[simp] theorem State.modTx_i2c (s : State) (n : Nat) (f : TxLane → TxLane) : (s.modTx n f).i2c = s.i2c := rfl
@[simp] theorem State.modTx_tenon (s : State) (n : Nat) (f : TxLane → TxLane) : (s.modTx n f).tenon = s.tenon := rfl
@[simp] theorem State.modTx_nextRid (s : State) (n : Nat) (f : TxLane → TxLane) : (s.modTx n f).nextRid = s.nextRid := rfl
@[simp] theorem State.modTx_longOps (s : State) (n : Nat) (f : TxLane → TxLane) : (s.modTx n f).longOps = s.longOps := rfl
@[simp] theorem State.modTx_log (s : State) (n : Nat) (f : TxLane → TxLane) : (s.modTx n f).log = s.log := rfl
@[simp] theorem State.modTx_recent (s : State) (n : Nat) (f : TxLane → TxLane) : (s.modTx n f).recent = s.recent := rfl
@[simp] theorem State.modTx_suppr (s : State) (n : Nat) (f : TxLane → TxLane) : (s.modTx n f).suppr = s.suppr := rfl
@[simp] theorem State.modTx_die1Log (s : State) (n : Nat) (f : TxLane → TxLane) : (s.modTx n f).die1Log = s.die1Log := rfl
@[simp] theorem State.modTx_caps (s : State) (n : Nat) (f : TxLane → TxLane) : (s.modTx n f).caps = s.caps := rfl
@[simp] theorem State.modTx_hists (s : State) (n : Nat) (f : TxLane → TxLane) : (s.modTx n f).hists = s.hists := rfl
@[simp] theorem State.modTx_joiners (s : State) (n : Nat) (f : TxLane → TxLane) : (s.modTx n f).joiners = s.joiners := rfl
@[simp] theorem State.modTx_fifos (s : State) (n : Nat) (f : TxLane → TxLane) : (s.modTx n f).fifos = s.fifos := rfl
@[simp] theorem State.modTx_pubs (s : State) (n : Nat) (f : TxLane → TxLane) : (s.modTx n f).pubs = s.pubs := rfl
@[simp] theorem State.modTx_pubSwaps (s : State) (n : Nat) (f : TxLane → TxLane) : (s.modTx n f).pubSwaps = s.pubSwaps := rfl
@[simp] theorem State.modTx_sys (s : State) (n : Nat) (f : TxLane → TxLane) : (s.modTx n f).sys = s.sys := rfl
@[simp] theorem State.modTx_rd (s : State) (n : Nat) (f : TxLane → TxLane) (b : Nat) : (s.modTx n f).rd b = s.rd b := rfl

/-! ### State.modHost -/

@[simp] theorem State.modHost_pending (s : State) (n : Nat) (f : HostLaneSt → HostLaneSt) : (s.modHost n f).pending = s.pending := rfl
@[simp] theorem State.modHost_regs (s : State) (n : Nat) (f : HostLaneSt → HostLaneSt) : (s.modHost n f).regs = s.regs := rfl
@[simp] theorem State.modHost_tickno (s : State) (n : Nat) (f : HostLaneSt → HostLaneSt) : (s.modHost n f).tickno = s.tickno := rfl
@[simp] theorem State.modHost_tickAdj (s : State) (n : Nat) (f : HostLaneSt → HostLaneSt) : (s.modHost n f).tickAdj = s.tickAdj := rfl
@[simp] theorem State.modHost_tick1 (s : State) (n : Nat) (f : HostLaneSt → HostLaneSt) : (s.modHost n f).tick1 = s.tick1 := rfl
@[simp] theorem State.modHost_free (s : State) (n : Nat) (f : HostLaneSt → HostLaneSt) : (s.modHost n f).free = s.free := rfl
@[simp] theorem State.modHost_image0 (s : State) (n : Nat) (f : HostLaneSt → HostLaneSt) : (s.modHost n f).image0 = s.image0 := rfl
@[simp] theorem State.modHost_image1 (s : State) (n : Nat) (f : HostLaneSt → HostLaneSt) : (s.modHost n f).image1 = s.image1 := rfl
@[simp] theorem State.modHost_seq0 (s : State) (n : Nat) (f : HostLaneSt → HostLaneSt) : (s.modHost n f).seq0 = s.seq0 := rfl
@[simp] theorem State.modHost_seq1 (s : State) (n : Nat) (f : HostLaneSt → HostLaneSt) : (s.modHost n f).seq1 = s.seq1 := rfl
@[simp] theorem State.modHost_rx (s : State) (n : Nat) (f : HostLaneSt → HostLaneSt) : (s.modHost n f).rx = s.rx := rfl
@[simp] theorem State.modHost_tx (s : State) (n : Nat) (f : HostLaneSt → HostLaneSt) : (s.modHost n f).tx = s.tx := rfl
@[simp] theorem State.modHost_ctxT (s : State) (n : Nat) (f : HostLaneSt → HostLaneSt) : (s.modHost n f).ctxT = s.ctxT := rfl
@[simp] theorem State.modHost_shpT (s : State) (n : Nat) (f : HostLaneSt → HostLaneSt) : (s.modHost n f).shpT = s.shpT := rfl
@[simp] theorem State.modHost_track (s : State) (n : Nat) (f : HostLaneSt → HostLaneSt) : (s.modHost n f).track = s.track := rfl
@[simp] theorem State.modHost_taps (s : State) (n : Nat) (f : HostLaneSt → HostLaneSt) : (s.modHost n f).taps = s.taps := rfl
@[simp] theorem State.modHost_doms (s : State) (n : Nat) (f : HostLaneSt → HostLaneSt) : (s.modHost n f).doms = s.doms := rfl
@[simp] theorem State.modHost_live (s : State) (n : Nat) (f : HostLaneSt → HostLaneSt) : (s.modHost n f).live = s.live := rfl
@[simp] theorem State.modHost_loads (s : State) (n : Nat) (f : HostLaneSt → HostLaneSt) : (s.modHost n f).loads = s.loads := rfl
@[simp] theorem State.modHost_mgmt (s : State) (n : Nat) (f : HostLaneSt → HostLaneSt) : (s.modHost n f).mgmt = s.mgmt := rfl
@[simp] theorem State.modHost_unit (s : State) (n : Nat) (f : HostLaneSt → HostLaneSt) : (s.modHost n f).unit = s.unit := rfl
@[simp] theorem State.modHost_asked (s : State) (n : Nat) (f : HostLaneSt → HostLaneSt) : (s.modHost n f).asked = s.asked := rfl
@[simp] theorem State.modHost_lanes (s : State) (n : Nat) (f : HostLaneSt → HostLaneSt) : (s.modHost n f).lanes = s.lanes := rfl
@[simp] theorem State.modHost_spi (s : State) (n : Nat) (f : HostLaneSt → HostLaneSt) : (s.modHost n f).spi = s.spi := rfl
@[simp] theorem State.modHost_i2c (s : State) (n : Nat) (f : HostLaneSt → HostLaneSt) : (s.modHost n f).i2c = s.i2c := rfl
@[simp] theorem State.modHost_tenon (s : State) (n : Nat) (f : HostLaneSt → HostLaneSt) : (s.modHost n f).tenon = s.tenon := rfl
@[simp] theorem State.modHost_nextRid (s : State) (n : Nat) (f : HostLaneSt → HostLaneSt) : (s.modHost n f).nextRid = s.nextRid := rfl
@[simp] theorem State.modHost_longOps (s : State) (n : Nat) (f : HostLaneSt → HostLaneSt) : (s.modHost n f).longOps = s.longOps := rfl
@[simp] theorem State.modHost_log (s : State) (n : Nat) (f : HostLaneSt → HostLaneSt) : (s.modHost n f).log = s.log := rfl
@[simp] theorem State.modHost_recent (s : State) (n : Nat) (f : HostLaneSt → HostLaneSt) : (s.modHost n f).recent = s.recent := rfl
@[simp] theorem State.modHost_suppr (s : State) (n : Nat) (f : HostLaneSt → HostLaneSt) : (s.modHost n f).suppr = s.suppr := rfl
@[simp] theorem State.modHost_die1Log (s : State) (n : Nat) (f : HostLaneSt → HostLaneSt) : (s.modHost n f).die1Log = s.die1Log := rfl
@[simp] theorem State.modHost_caps (s : State) (n : Nat) (f : HostLaneSt → HostLaneSt) : (s.modHost n f).caps = s.caps := rfl
@[simp] theorem State.modHost_hists (s : State) (n : Nat) (f : HostLaneSt → HostLaneSt) : (s.modHost n f).hists = s.hists := rfl
@[simp] theorem State.modHost_joiners (s : State) (n : Nat) (f : HostLaneSt → HostLaneSt) : (s.modHost n f).joiners = s.joiners := rfl
@[simp] theorem State.modHost_fifos (s : State) (n : Nat) (f : HostLaneSt → HostLaneSt) : (s.modHost n f).fifos = s.fifos := rfl
@[simp] theorem State.modHost_pubs (s : State) (n : Nat) (f : HostLaneSt → HostLaneSt) : (s.modHost n f).pubs = s.pubs := rfl
@[simp] theorem State.modHost_pubSwaps (s : State) (n : Nat) (f : HostLaneSt → HostLaneSt) : (s.modHost n f).pubSwaps = s.pubSwaps := rfl
@[simp] theorem State.modHost_sys (s : State) (n : Nat) (f : HostLaneSt → HostLaneSt) : (s.modHost n f).sys = s.sys := rfl
@[simp] theorem State.modHost_rd (s : State) (n : Nat) (f : HostLaneSt → HostLaneSt) (b : Nat) : (s.modHost n f).rd b = s.rd b := rfl

/-! ### State.modJn -/

@[simp] theorem State.modJn_pending (s : State) (d : Nat) (f : Joiner → Joiner) : (s.modJn d f).pending = s.pending := rfl
@[simp] theorem State.modJn_regs (s : State) (d : Nat) (f : Joiner → Joiner) : (s.modJn d f).regs = s.regs := rfl
@[simp] theorem State.modJn_tickno (s : State) (d : Nat) (f : Joiner → Joiner) : (s.modJn d f).tickno = s.tickno := rfl
@[simp] theorem State.modJn_tickAdj (s : State) (d : Nat) (f : Joiner → Joiner) : (s.modJn d f).tickAdj = s.tickAdj := rfl
@[simp] theorem State.modJn_tick1 (s : State) (d : Nat) (f : Joiner → Joiner) : (s.modJn d f).tick1 = s.tick1 := rfl
@[simp] theorem State.modJn_free (s : State) (d : Nat) (f : Joiner → Joiner) : (s.modJn d f).free = s.free := rfl
@[simp] theorem State.modJn_image0 (s : State) (d : Nat) (f : Joiner → Joiner) : (s.modJn d f).image0 = s.image0 := rfl
@[simp] theorem State.modJn_image1 (s : State) (d : Nat) (f : Joiner → Joiner) : (s.modJn d f).image1 = s.image1 := rfl
@[simp] theorem State.modJn_seq0 (s : State) (d : Nat) (f : Joiner → Joiner) : (s.modJn d f).seq0 = s.seq0 := rfl
@[simp] theorem State.modJn_seq1 (s : State) (d : Nat) (f : Joiner → Joiner) : (s.modJn d f).seq1 = s.seq1 := rfl
@[simp] theorem State.modJn_rx (s : State) (d : Nat) (f : Joiner → Joiner) : (s.modJn d f).rx = s.rx := rfl
@[simp] theorem State.modJn_tx (s : State) (d : Nat) (f : Joiner → Joiner) : (s.modJn d f).tx = s.tx := rfl
@[simp] theorem State.modJn_host (s : State) (d : Nat) (f : Joiner → Joiner) : (s.modJn d f).host = s.host := rfl
@[simp] theorem State.modJn_ctxT (s : State) (d : Nat) (f : Joiner → Joiner) : (s.modJn d f).ctxT = s.ctxT := rfl
@[simp] theorem State.modJn_shpT (s : State) (d : Nat) (f : Joiner → Joiner) : (s.modJn d f).shpT = s.shpT := rfl
@[simp] theorem State.modJn_track (s : State) (d : Nat) (f : Joiner → Joiner) : (s.modJn d f).track = s.track := rfl
@[simp] theorem State.modJn_taps (s : State) (d : Nat) (f : Joiner → Joiner) : (s.modJn d f).taps = s.taps := rfl
@[simp] theorem State.modJn_doms (s : State) (d : Nat) (f : Joiner → Joiner) : (s.modJn d f).doms = s.doms := rfl
@[simp] theorem State.modJn_live (s : State) (d : Nat) (f : Joiner → Joiner) : (s.modJn d f).live = s.live := rfl
@[simp] theorem State.modJn_loads (s : State) (d : Nat) (f : Joiner → Joiner) : (s.modJn d f).loads = s.loads := rfl
@[simp] theorem State.modJn_mgmt (s : State) (d : Nat) (f : Joiner → Joiner) : (s.modJn d f).mgmt = s.mgmt := rfl
@[simp] theorem State.modJn_unit (s : State) (d : Nat) (f : Joiner → Joiner) : (s.modJn d f).unit = s.unit := rfl
@[simp] theorem State.modJn_asked (s : State) (d : Nat) (f : Joiner → Joiner) : (s.modJn d f).asked = s.asked := rfl
@[simp] theorem State.modJn_lanes (s : State) (d : Nat) (f : Joiner → Joiner) : (s.modJn d f).lanes = s.lanes := rfl
@[simp] theorem State.modJn_spi (s : State) (d : Nat) (f : Joiner → Joiner) : (s.modJn d f).spi = s.spi := rfl
@[simp] theorem State.modJn_i2c (s : State) (d : Nat) (f : Joiner → Joiner) : (s.modJn d f).i2c = s.i2c := rfl
@[simp] theorem State.modJn_tenon (s : State) (d : Nat) (f : Joiner → Joiner) : (s.modJn d f).tenon = s.tenon := rfl
@[simp] theorem State.modJn_nextRid (s : State) (d : Nat) (f : Joiner → Joiner) : (s.modJn d f).nextRid = s.nextRid := rfl
@[simp] theorem State.modJn_longOps (s : State) (d : Nat) (f : Joiner → Joiner) : (s.modJn d f).longOps = s.longOps := rfl
@[simp] theorem State.modJn_log (s : State) (d : Nat) (f : Joiner → Joiner) : (s.modJn d f).log = s.log := rfl
@[simp] theorem State.modJn_recent (s : State) (d : Nat) (f : Joiner → Joiner) : (s.modJn d f).recent = s.recent := rfl
@[simp] theorem State.modJn_suppr (s : State) (d : Nat) (f : Joiner → Joiner) : (s.modJn d f).suppr = s.suppr := rfl
@[simp] theorem State.modJn_die1Log (s : State) (d : Nat) (f : Joiner → Joiner) : (s.modJn d f).die1Log = s.die1Log := rfl
@[simp] theorem State.modJn_caps (s : State) (d : Nat) (f : Joiner → Joiner) : (s.modJn d f).caps = s.caps := rfl
@[simp] theorem State.modJn_hists (s : State) (d : Nat) (f : Joiner → Joiner) : (s.modJn d f).hists = s.hists := rfl
@[simp] theorem State.modJn_fifos (s : State) (d : Nat) (f : Joiner → Joiner) : (s.modJn d f).fifos = s.fifos := rfl
@[simp] theorem State.modJn_pubs (s : State) (d : Nat) (f : Joiner → Joiner) : (s.modJn d f).pubs = s.pubs := rfl
@[simp] theorem State.modJn_pubSwaps (s : State) (d : Nat) (f : Joiner → Joiner) : (s.modJn d f).pubSwaps = s.pubSwaps := rfl
@[simp] theorem State.modJn_sys (s : State) (d : Nat) (f : Joiner → Joiner) : (s.modJn d f).sys = s.sys := rfl
@[simp] theorem State.modJn_rd (s : State) (d : Nat) (f : Joiner → Joiner) (b : Nat) : (s.modJn d f).rd b = s.rd b := rfl

/-! ### State.modFifo -/

@[simp] theorem State.modFifo_pending (s : State) (c : Nat) (f : CapFifo → CapFifo) : (s.modFifo c f).pending = s.pending := rfl
@[simp] theorem State.modFifo_regs (s : State) (c : Nat) (f : CapFifo → CapFifo) : (s.modFifo c f).regs = s.regs := rfl
@[simp] theorem State.modFifo_tickno (s : State) (c : Nat) (f : CapFifo → CapFifo) : (s.modFifo c f).tickno = s.tickno := rfl
@[simp] theorem State.modFifo_tickAdj (s : State) (c : Nat) (f : CapFifo → CapFifo) : (s.modFifo c f).tickAdj = s.tickAdj := rfl
@[simp] theorem State.modFifo_tick1 (s : State) (c : Nat) (f : CapFifo → CapFifo) : (s.modFifo c f).tick1 = s.tick1 := rfl
@[simp] theorem State.modFifo_free (s : State) (c : Nat) (f : CapFifo → CapFifo) : (s.modFifo c f).free = s.free := rfl
@[simp] theorem State.modFifo_image0 (s : State) (c : Nat) (f : CapFifo → CapFifo) : (s.modFifo c f).image0 = s.image0 := rfl
@[simp] theorem State.modFifo_image1 (s : State) (c : Nat) (f : CapFifo → CapFifo) : (s.modFifo c f).image1 = s.image1 := rfl
@[simp] theorem State.modFifo_seq0 (s : State) (c : Nat) (f : CapFifo → CapFifo) : (s.modFifo c f).seq0 = s.seq0 := rfl
@[simp] theorem State.modFifo_seq1 (s : State) (c : Nat) (f : CapFifo → CapFifo) : (s.modFifo c f).seq1 = s.seq1 := rfl
@[simp] theorem State.modFifo_rx (s : State) (c : Nat) (f : CapFifo → CapFifo) : (s.modFifo c f).rx = s.rx := rfl
@[simp] theorem State.modFifo_tx (s : State) (c : Nat) (f : CapFifo → CapFifo) : (s.modFifo c f).tx = s.tx := rfl
@[simp] theorem State.modFifo_host (s : State) (c : Nat) (f : CapFifo → CapFifo) : (s.modFifo c f).host = s.host := rfl
@[simp] theorem State.modFifo_ctxT (s : State) (c : Nat) (f : CapFifo → CapFifo) : (s.modFifo c f).ctxT = s.ctxT := rfl
@[simp] theorem State.modFifo_shpT (s : State) (c : Nat) (f : CapFifo → CapFifo) : (s.modFifo c f).shpT = s.shpT := rfl
@[simp] theorem State.modFifo_track (s : State) (c : Nat) (f : CapFifo → CapFifo) : (s.modFifo c f).track = s.track := rfl
@[simp] theorem State.modFifo_taps (s : State) (c : Nat) (f : CapFifo → CapFifo) : (s.modFifo c f).taps = s.taps := rfl
@[simp] theorem State.modFifo_doms (s : State) (c : Nat) (f : CapFifo → CapFifo) : (s.modFifo c f).doms = s.doms := rfl
@[simp] theorem State.modFifo_live (s : State) (c : Nat) (f : CapFifo → CapFifo) : (s.modFifo c f).live = s.live := rfl
@[simp] theorem State.modFifo_loads (s : State) (c : Nat) (f : CapFifo → CapFifo) : (s.modFifo c f).loads = s.loads := rfl
@[simp] theorem State.modFifo_mgmt (s : State) (c : Nat) (f : CapFifo → CapFifo) : (s.modFifo c f).mgmt = s.mgmt := rfl
@[simp] theorem State.modFifo_unit (s : State) (c : Nat) (f : CapFifo → CapFifo) : (s.modFifo c f).unit = s.unit := rfl
@[simp] theorem State.modFifo_asked (s : State) (c : Nat) (f : CapFifo → CapFifo) : (s.modFifo c f).asked = s.asked := rfl
@[simp] theorem State.modFifo_lanes (s : State) (c : Nat) (f : CapFifo → CapFifo) : (s.modFifo c f).lanes = s.lanes := rfl
@[simp] theorem State.modFifo_spi (s : State) (c : Nat) (f : CapFifo → CapFifo) : (s.modFifo c f).spi = s.spi := rfl
@[simp] theorem State.modFifo_i2c (s : State) (c : Nat) (f : CapFifo → CapFifo) : (s.modFifo c f).i2c = s.i2c := rfl
@[simp] theorem State.modFifo_tenon (s : State) (c : Nat) (f : CapFifo → CapFifo) : (s.modFifo c f).tenon = s.tenon := rfl
@[simp] theorem State.modFifo_nextRid (s : State) (c : Nat) (f : CapFifo → CapFifo) : (s.modFifo c f).nextRid = s.nextRid := rfl
@[simp] theorem State.modFifo_longOps (s : State) (c : Nat) (f : CapFifo → CapFifo) : (s.modFifo c f).longOps = s.longOps := rfl
@[simp] theorem State.modFifo_log (s : State) (c : Nat) (f : CapFifo → CapFifo) : (s.modFifo c f).log = s.log := rfl
@[simp] theorem State.modFifo_recent (s : State) (c : Nat) (f : CapFifo → CapFifo) : (s.modFifo c f).recent = s.recent := rfl
@[simp] theorem State.modFifo_suppr (s : State) (c : Nat) (f : CapFifo → CapFifo) : (s.modFifo c f).suppr = s.suppr := rfl
@[simp] theorem State.modFifo_die1Log (s : State) (c : Nat) (f : CapFifo → CapFifo) : (s.modFifo c f).die1Log = s.die1Log := rfl
@[simp] theorem State.modFifo_caps (s : State) (c : Nat) (f : CapFifo → CapFifo) : (s.modFifo c f).caps = s.caps := rfl
@[simp] theorem State.modFifo_hists (s : State) (c : Nat) (f : CapFifo → CapFifo) : (s.modFifo c f).hists = s.hists := rfl
@[simp] theorem State.modFifo_joiners (s : State) (c : Nat) (f : CapFifo → CapFifo) : (s.modFifo c f).joiners = s.joiners := rfl
@[simp] theorem State.modFifo_pubs (s : State) (c : Nat) (f : CapFifo → CapFifo) : (s.modFifo c f).pubs = s.pubs := rfl
@[simp] theorem State.modFifo_pubSwaps (s : State) (c : Nat) (f : CapFifo → CapFifo) : (s.modFifo c f).pubSwaps = s.pubSwaps := rfl
@[simp] theorem State.modFifo_sys (s : State) (c : Nat) (f : CapFifo → CapFifo) : (s.modFifo c f).sys = s.sys := rfl
@[simp] theorem State.modFifo_rd (s : State) (c : Nat) (f : CapFifo → CapFifo) (b : Nat) : (s.modFifo c f).rd b = s.rd b := rfl

/-! ### State.modCap -/

@[simp] theorem State.modCap_pending (s : State) (n : Nat) (f : CapRing → CapRing) : (s.modCap n f).pending = s.pending := rfl
@[simp] theorem State.modCap_regs (s : State) (n : Nat) (f : CapRing → CapRing) : (s.modCap n f).regs = s.regs := rfl
@[simp] theorem State.modCap_tickno (s : State) (n : Nat) (f : CapRing → CapRing) : (s.modCap n f).tickno = s.tickno := rfl
@[simp] theorem State.modCap_tickAdj (s : State) (n : Nat) (f : CapRing → CapRing) : (s.modCap n f).tickAdj = s.tickAdj := rfl
@[simp] theorem State.modCap_tick1 (s : State) (n : Nat) (f : CapRing → CapRing) : (s.modCap n f).tick1 = s.tick1 := rfl
@[simp] theorem State.modCap_free (s : State) (n : Nat) (f : CapRing → CapRing) : (s.modCap n f).free = s.free := rfl
@[simp] theorem State.modCap_image0 (s : State) (n : Nat) (f : CapRing → CapRing) : (s.modCap n f).image0 = s.image0 := rfl
@[simp] theorem State.modCap_image1 (s : State) (n : Nat) (f : CapRing → CapRing) : (s.modCap n f).image1 = s.image1 := rfl
@[simp] theorem State.modCap_seq0 (s : State) (n : Nat) (f : CapRing → CapRing) : (s.modCap n f).seq0 = s.seq0 := rfl
@[simp] theorem State.modCap_seq1 (s : State) (n : Nat) (f : CapRing → CapRing) : (s.modCap n f).seq1 = s.seq1 := rfl
@[simp] theorem State.modCap_rx (s : State) (n : Nat) (f : CapRing → CapRing) : (s.modCap n f).rx = s.rx := rfl
@[simp] theorem State.modCap_tx (s : State) (n : Nat) (f : CapRing → CapRing) : (s.modCap n f).tx = s.tx := rfl
@[simp] theorem State.modCap_host (s : State) (n : Nat) (f : CapRing → CapRing) : (s.modCap n f).host = s.host := rfl
@[simp] theorem State.modCap_ctxT (s : State) (n : Nat) (f : CapRing → CapRing) : (s.modCap n f).ctxT = s.ctxT := rfl
@[simp] theorem State.modCap_shpT (s : State) (n : Nat) (f : CapRing → CapRing) : (s.modCap n f).shpT = s.shpT := rfl
@[simp] theorem State.modCap_track (s : State) (n : Nat) (f : CapRing → CapRing) : (s.modCap n f).track = s.track := rfl
@[simp] theorem State.modCap_taps (s : State) (n : Nat) (f : CapRing → CapRing) : (s.modCap n f).taps = s.taps := rfl
@[simp] theorem State.modCap_doms (s : State) (n : Nat) (f : CapRing → CapRing) : (s.modCap n f).doms = s.doms := rfl
@[simp] theorem State.modCap_live (s : State) (n : Nat) (f : CapRing → CapRing) : (s.modCap n f).live = s.live := rfl
@[simp] theorem State.modCap_loads (s : State) (n : Nat) (f : CapRing → CapRing) : (s.modCap n f).loads = s.loads := rfl
@[simp] theorem State.modCap_mgmt (s : State) (n : Nat) (f : CapRing → CapRing) : (s.modCap n f).mgmt = s.mgmt := rfl
@[simp] theorem State.modCap_unit (s : State) (n : Nat) (f : CapRing → CapRing) : (s.modCap n f).unit = s.unit := rfl
@[simp] theorem State.modCap_asked (s : State) (n : Nat) (f : CapRing → CapRing) : (s.modCap n f).asked = s.asked := rfl
@[simp] theorem State.modCap_lanes (s : State) (n : Nat) (f : CapRing → CapRing) : (s.modCap n f).lanes = s.lanes := rfl
@[simp] theorem State.modCap_spi (s : State) (n : Nat) (f : CapRing → CapRing) : (s.modCap n f).spi = s.spi := rfl
@[simp] theorem State.modCap_i2c (s : State) (n : Nat) (f : CapRing → CapRing) : (s.modCap n f).i2c = s.i2c := rfl
@[simp] theorem State.modCap_tenon (s : State) (n : Nat) (f : CapRing → CapRing) : (s.modCap n f).tenon = s.tenon := rfl
@[simp] theorem State.modCap_nextRid (s : State) (n : Nat) (f : CapRing → CapRing) : (s.modCap n f).nextRid = s.nextRid := rfl
@[simp] theorem State.modCap_longOps (s : State) (n : Nat) (f : CapRing → CapRing) : (s.modCap n f).longOps = s.longOps := rfl
@[simp] theorem State.modCap_log (s : State) (n : Nat) (f : CapRing → CapRing) : (s.modCap n f).log = s.log := rfl
@[simp] theorem State.modCap_recent (s : State) (n : Nat) (f : CapRing → CapRing) : (s.modCap n f).recent = s.recent := rfl
@[simp] theorem State.modCap_suppr (s : State) (n : Nat) (f : CapRing → CapRing) : (s.modCap n f).suppr = s.suppr := rfl
@[simp] theorem State.modCap_die1Log (s : State) (n : Nat) (f : CapRing → CapRing) : (s.modCap n f).die1Log = s.die1Log := rfl
@[simp] theorem State.modCap_hists (s : State) (n : Nat) (f : CapRing → CapRing) : (s.modCap n f).hists = s.hists := rfl
@[simp] theorem State.modCap_joiners (s : State) (n : Nat) (f : CapRing → CapRing) : (s.modCap n f).joiners = s.joiners := rfl
@[simp] theorem State.modCap_fifos (s : State) (n : Nat) (f : CapRing → CapRing) : (s.modCap n f).fifos = s.fifos := rfl
@[simp] theorem State.modCap_pubs (s : State) (n : Nat) (f : CapRing → CapRing) : (s.modCap n f).pubs = s.pubs := rfl
@[simp] theorem State.modCap_pubSwaps (s : State) (n : Nat) (f : CapRing → CapRing) : (s.modCap n f).pubSwaps = s.pubSwaps := rfl
@[simp] theorem State.modCap_sys (s : State) (n : Nat) (f : CapRing → CapRing) : (s.modCap n f).sys = s.sys := rfl
@[simp] theorem State.modCap_rd (s : State) (n : Nat) (f : CapRing → CapRing) (b : Nat) : (s.modCap n f).rd b = s.rd b := rfl

/-! ### State.modTap -/

@[simp] theorem State.modTap_pending (s : State) (i : Nat) (f : Tap → Tap) : (s.modTap i f).pending = s.pending := rfl
@[simp] theorem State.modTap_regs (s : State) (i : Nat) (f : Tap → Tap) : (s.modTap i f).regs = s.regs := rfl
@[simp] theorem State.modTap_tickno (s : State) (i : Nat) (f : Tap → Tap) : (s.modTap i f).tickno = s.tickno := rfl
@[simp] theorem State.modTap_tickAdj (s : State) (i : Nat) (f : Tap → Tap) : (s.modTap i f).tickAdj = s.tickAdj := rfl
@[simp] theorem State.modTap_tick1 (s : State) (i : Nat) (f : Tap → Tap) : (s.modTap i f).tick1 = s.tick1 := rfl
@[simp] theorem State.modTap_free (s : State) (i : Nat) (f : Tap → Tap) : (s.modTap i f).free = s.free := rfl
@[simp] theorem State.modTap_image0 (s : State) (i : Nat) (f : Tap → Tap) : (s.modTap i f).image0 = s.image0 := rfl
@[simp] theorem State.modTap_image1 (s : State) (i : Nat) (f : Tap → Tap) : (s.modTap i f).image1 = s.image1 := rfl
@[simp] theorem State.modTap_seq0 (s : State) (i : Nat) (f : Tap → Tap) : (s.modTap i f).seq0 = s.seq0 := rfl
@[simp] theorem State.modTap_seq1 (s : State) (i : Nat) (f : Tap → Tap) : (s.modTap i f).seq1 = s.seq1 := rfl
@[simp] theorem State.modTap_rx (s : State) (i : Nat) (f : Tap → Tap) : (s.modTap i f).rx = s.rx := rfl
@[simp] theorem State.modTap_tx (s : State) (i : Nat) (f : Tap → Tap) : (s.modTap i f).tx = s.tx := rfl
@[simp] theorem State.modTap_host (s : State) (i : Nat) (f : Tap → Tap) : (s.modTap i f).host = s.host := rfl
@[simp] theorem State.modTap_ctxT (s : State) (i : Nat) (f : Tap → Tap) : (s.modTap i f).ctxT = s.ctxT := rfl
@[simp] theorem State.modTap_shpT (s : State) (i : Nat) (f : Tap → Tap) : (s.modTap i f).shpT = s.shpT := rfl
@[simp] theorem State.modTap_track (s : State) (i : Nat) (f : Tap → Tap) : (s.modTap i f).track = s.track := rfl
@[simp] theorem State.modTap_doms (s : State) (i : Nat) (f : Tap → Tap) : (s.modTap i f).doms = s.doms := rfl
@[simp] theorem State.modTap_live (s : State) (i : Nat) (f : Tap → Tap) : (s.modTap i f).live = s.live := rfl
@[simp] theorem State.modTap_loads (s : State) (i : Nat) (f : Tap → Tap) : (s.modTap i f).loads = s.loads := rfl
@[simp] theorem State.modTap_mgmt (s : State) (i : Nat) (f : Tap → Tap) : (s.modTap i f).mgmt = s.mgmt := rfl
@[simp] theorem State.modTap_unit (s : State) (i : Nat) (f : Tap → Tap) : (s.modTap i f).unit = s.unit := rfl
@[simp] theorem State.modTap_asked (s : State) (i : Nat) (f : Tap → Tap) : (s.modTap i f).asked = s.asked := rfl
@[simp] theorem State.modTap_lanes (s : State) (i : Nat) (f : Tap → Tap) : (s.modTap i f).lanes = s.lanes := rfl
@[simp] theorem State.modTap_spi (s : State) (i : Nat) (f : Tap → Tap) : (s.modTap i f).spi = s.spi := rfl
@[simp] theorem State.modTap_i2c (s : State) (i : Nat) (f : Tap → Tap) : (s.modTap i f).i2c = s.i2c := rfl
@[simp] theorem State.modTap_tenon (s : State) (i : Nat) (f : Tap → Tap) : (s.modTap i f).tenon = s.tenon := rfl
@[simp] theorem State.modTap_nextRid (s : State) (i : Nat) (f : Tap → Tap) : (s.modTap i f).nextRid = s.nextRid := rfl
@[simp] theorem State.modTap_longOps (s : State) (i : Nat) (f : Tap → Tap) : (s.modTap i f).longOps = s.longOps := rfl
@[simp] theorem State.modTap_log (s : State) (i : Nat) (f : Tap → Tap) : (s.modTap i f).log = s.log := rfl
@[simp] theorem State.modTap_recent (s : State) (i : Nat) (f : Tap → Tap) : (s.modTap i f).recent = s.recent := rfl
@[simp] theorem State.modTap_suppr (s : State) (i : Nat) (f : Tap → Tap) : (s.modTap i f).suppr = s.suppr := rfl
@[simp] theorem State.modTap_die1Log (s : State) (i : Nat) (f : Tap → Tap) : (s.modTap i f).die1Log = s.die1Log := rfl
@[simp] theorem State.modTap_caps (s : State) (i : Nat) (f : Tap → Tap) : (s.modTap i f).caps = s.caps := rfl
@[simp] theorem State.modTap_hists (s : State) (i : Nat) (f : Tap → Tap) : (s.modTap i f).hists = s.hists := rfl
@[simp] theorem State.modTap_joiners (s : State) (i : Nat) (f : Tap → Tap) : (s.modTap i f).joiners = s.joiners := rfl
@[simp] theorem State.modTap_fifos (s : State) (i : Nat) (f : Tap → Tap) : (s.modTap i f).fifos = s.fifos := rfl
@[simp] theorem State.modTap_pubs (s : State) (i : Nat) (f : Tap → Tap) : (s.modTap i f).pubs = s.pubs := rfl
@[simp] theorem State.modTap_pubSwaps (s : State) (i : Nat) (f : Tap → Tap) : (s.modTap i f).pubSwaps = s.pubSwaps := rfl
@[simp] theorem State.modTap_sys (s : State) (i : Nat) (f : Tap → Tap) : (s.modTap i f).sys = s.sys := rfl
@[simp] theorem State.modTap_rd (s : State) (i : Nat) (f : Tap → Tap) (b : Nat) : (s.modTap i f).rd b = s.rd b := rfl

/-! ### State.modDom -/

@[simp] theorem State.modDom_pending (s : State) (d : Nat) (f : Domain → Domain) : (s.modDom d f).pending = s.pending := rfl
@[simp] theorem State.modDom_regs (s : State) (d : Nat) (f : Domain → Domain) : (s.modDom d f).regs = s.regs := rfl
@[simp] theorem State.modDom_tickno (s : State) (d : Nat) (f : Domain → Domain) : (s.modDom d f).tickno = s.tickno := rfl
@[simp] theorem State.modDom_tickAdj (s : State) (d : Nat) (f : Domain → Domain) : (s.modDom d f).tickAdj = s.tickAdj := rfl
@[simp] theorem State.modDom_tick1 (s : State) (d : Nat) (f : Domain → Domain) : (s.modDom d f).tick1 = s.tick1 := rfl
@[simp] theorem State.modDom_free (s : State) (d : Nat) (f : Domain → Domain) : (s.modDom d f).free = s.free := rfl
@[simp] theorem State.modDom_image0 (s : State) (d : Nat) (f : Domain → Domain) : (s.modDom d f).image0 = s.image0 := rfl
@[simp] theorem State.modDom_image1 (s : State) (d : Nat) (f : Domain → Domain) : (s.modDom d f).image1 = s.image1 := rfl
@[simp] theorem State.modDom_seq0 (s : State) (d : Nat) (f : Domain → Domain) : (s.modDom d f).seq0 = s.seq0 := rfl
@[simp] theorem State.modDom_seq1 (s : State) (d : Nat) (f : Domain → Domain) : (s.modDom d f).seq1 = s.seq1 := rfl
@[simp] theorem State.modDom_rx (s : State) (d : Nat) (f : Domain → Domain) : (s.modDom d f).rx = s.rx := rfl
@[simp] theorem State.modDom_tx (s : State) (d : Nat) (f : Domain → Domain) : (s.modDom d f).tx = s.tx := rfl
@[simp] theorem State.modDom_host (s : State) (d : Nat) (f : Domain → Domain) : (s.modDom d f).host = s.host := rfl
@[simp] theorem State.modDom_ctxT (s : State) (d : Nat) (f : Domain → Domain) : (s.modDom d f).ctxT = s.ctxT := rfl
@[simp] theorem State.modDom_shpT (s : State) (d : Nat) (f : Domain → Domain) : (s.modDom d f).shpT = s.shpT := rfl
@[simp] theorem State.modDom_track (s : State) (d : Nat) (f : Domain → Domain) : (s.modDom d f).track = s.track := rfl
@[simp] theorem State.modDom_taps (s : State) (d : Nat) (f : Domain → Domain) : (s.modDom d f).taps = s.taps := rfl
@[simp] theorem State.modDom_live (s : State) (d : Nat) (f : Domain → Domain) : (s.modDom d f).live = s.live := rfl
@[simp] theorem State.modDom_loads (s : State) (d : Nat) (f : Domain → Domain) : (s.modDom d f).loads = s.loads := rfl
@[simp] theorem State.modDom_mgmt (s : State) (d : Nat) (f : Domain → Domain) : (s.modDom d f).mgmt = s.mgmt := rfl
@[simp] theorem State.modDom_unit (s : State) (d : Nat) (f : Domain → Domain) : (s.modDom d f).unit = s.unit := rfl
@[simp] theorem State.modDom_asked (s : State) (d : Nat) (f : Domain → Domain) : (s.modDom d f).asked = s.asked := rfl
@[simp] theorem State.modDom_lanes (s : State) (d : Nat) (f : Domain → Domain) : (s.modDom d f).lanes = s.lanes := rfl
@[simp] theorem State.modDom_spi (s : State) (d : Nat) (f : Domain → Domain) : (s.modDom d f).spi = s.spi := rfl
@[simp] theorem State.modDom_i2c (s : State) (d : Nat) (f : Domain → Domain) : (s.modDom d f).i2c = s.i2c := rfl
@[simp] theorem State.modDom_tenon (s : State) (d : Nat) (f : Domain → Domain) : (s.modDom d f).tenon = s.tenon := rfl
@[simp] theorem State.modDom_nextRid (s : State) (d : Nat) (f : Domain → Domain) : (s.modDom d f).nextRid = s.nextRid := rfl
@[simp] theorem State.modDom_longOps (s : State) (d : Nat) (f : Domain → Domain) : (s.modDom d f).longOps = s.longOps := rfl
@[simp] theorem State.modDom_log (s : State) (d : Nat) (f : Domain → Domain) : (s.modDom d f).log = s.log := rfl
@[simp] theorem State.modDom_recent (s : State) (d : Nat) (f : Domain → Domain) : (s.modDom d f).recent = s.recent := rfl
@[simp] theorem State.modDom_suppr (s : State) (d : Nat) (f : Domain → Domain) : (s.modDom d f).suppr = s.suppr := rfl
@[simp] theorem State.modDom_die1Log (s : State) (d : Nat) (f : Domain → Domain) : (s.modDom d f).die1Log = s.die1Log := rfl
@[simp] theorem State.modDom_caps (s : State) (d : Nat) (f : Domain → Domain) : (s.modDom d f).caps = s.caps := rfl
@[simp] theorem State.modDom_hists (s : State) (d : Nat) (f : Domain → Domain) : (s.modDom d f).hists = s.hists := rfl
@[simp] theorem State.modDom_joiners (s : State) (d : Nat) (f : Domain → Domain) : (s.modDom d f).joiners = s.joiners := rfl
@[simp] theorem State.modDom_fifos (s : State) (d : Nat) (f : Domain → Domain) : (s.modDom d f).fifos = s.fifos := rfl
@[simp] theorem State.modDom_pubs (s : State) (d : Nat) (f : Domain → Domain) : (s.modDom d f).pubs = s.pubs := rfl
@[simp] theorem State.modDom_pubSwaps (s : State) (d : Nat) (f : Domain → Domain) : (s.modDom d f).pubSwaps = s.pubSwaps := rfl
@[simp] theorem State.modDom_sys (s : State) (d : Nat) (f : Domain → Domain) : (s.modDom d f).sys = s.sys := rfl
@[simp] theorem State.modDom_rd (s : State) (d : Nat) (f : Domain → Domain) (b : Nat) : (s.modDom d f).rd b = s.rd b := rfl

/-! ### State.modSys -/

@[simp] theorem State.modSys_pending (s : State) (f : Sys → Sys) : (s.modSys f).pending = s.pending := rfl
@[simp] theorem State.modSys_regs (s : State) (f : Sys → Sys) : (s.modSys f).regs = s.regs := rfl
@[simp] theorem State.modSys_tickno (s : State) (f : Sys → Sys) : (s.modSys f).tickno = s.tickno := rfl
@[simp] theorem State.modSys_tickAdj (s : State) (f : Sys → Sys) : (s.modSys f).tickAdj = s.tickAdj := rfl
@[simp] theorem State.modSys_tick1 (s : State) (f : Sys → Sys) : (s.modSys f).tick1 = s.tick1 := rfl
@[simp] theorem State.modSys_free (s : State) (f : Sys → Sys) : (s.modSys f).free = s.free := rfl
@[simp] theorem State.modSys_image0 (s : State) (f : Sys → Sys) : (s.modSys f).image0 = s.image0 := rfl
@[simp] theorem State.modSys_image1 (s : State) (f : Sys → Sys) : (s.modSys f).image1 = s.image1 := rfl
@[simp] theorem State.modSys_seq0 (s : State) (f : Sys → Sys) : (s.modSys f).seq0 = s.seq0 := rfl
@[simp] theorem State.modSys_seq1 (s : State) (f : Sys → Sys) : (s.modSys f).seq1 = s.seq1 := rfl
@[simp] theorem State.modSys_rx (s : State) (f : Sys → Sys) : (s.modSys f).rx = s.rx := rfl
@[simp] theorem State.modSys_tx (s : State) (f : Sys → Sys) : (s.modSys f).tx = s.tx := rfl
@[simp] theorem State.modSys_host (s : State) (f : Sys → Sys) : (s.modSys f).host = s.host := rfl
@[simp] theorem State.modSys_ctxT (s : State) (f : Sys → Sys) : (s.modSys f).ctxT = s.ctxT := rfl
@[simp] theorem State.modSys_shpT (s : State) (f : Sys → Sys) : (s.modSys f).shpT = s.shpT := rfl
@[simp] theorem State.modSys_track (s : State) (f : Sys → Sys) : (s.modSys f).track = s.track := rfl
@[simp] theorem State.modSys_taps (s : State) (f : Sys → Sys) : (s.modSys f).taps = s.taps := rfl
@[simp] theorem State.modSys_doms (s : State) (f : Sys → Sys) : (s.modSys f).doms = s.doms := rfl
@[simp] theorem State.modSys_live (s : State) (f : Sys → Sys) : (s.modSys f).live = s.live := rfl
@[simp] theorem State.modSys_loads (s : State) (f : Sys → Sys) : (s.modSys f).loads = s.loads := rfl
@[simp] theorem State.modSys_mgmt (s : State) (f : Sys → Sys) : (s.modSys f).mgmt = s.mgmt := rfl
@[simp] theorem State.modSys_unit (s : State) (f : Sys → Sys) : (s.modSys f).unit = s.unit := rfl
@[simp] theorem State.modSys_asked (s : State) (f : Sys → Sys) : (s.modSys f).asked = s.asked := rfl
@[simp] theorem State.modSys_lanes (s : State) (f : Sys → Sys) : (s.modSys f).lanes = s.lanes := rfl
@[simp] theorem State.modSys_spi (s : State) (f : Sys → Sys) : (s.modSys f).spi = s.spi := rfl
@[simp] theorem State.modSys_i2c (s : State) (f : Sys → Sys) : (s.modSys f).i2c = s.i2c := rfl
@[simp] theorem State.modSys_tenon (s : State) (f : Sys → Sys) : (s.modSys f).tenon = s.tenon := rfl
@[simp] theorem State.modSys_nextRid (s : State) (f : Sys → Sys) : (s.modSys f).nextRid = s.nextRid := rfl
@[simp] theorem State.modSys_longOps (s : State) (f : Sys → Sys) : (s.modSys f).longOps = s.longOps := rfl
@[simp] theorem State.modSys_log (s : State) (f : Sys → Sys) : (s.modSys f).log = s.log := rfl
@[simp] theorem State.modSys_recent (s : State) (f : Sys → Sys) : (s.modSys f).recent = s.recent := rfl
@[simp] theorem State.modSys_suppr (s : State) (f : Sys → Sys) : (s.modSys f).suppr = s.suppr := rfl
@[simp] theorem State.modSys_die1Log (s : State) (f : Sys → Sys) : (s.modSys f).die1Log = s.die1Log := rfl
@[simp] theorem State.modSys_caps (s : State) (f : Sys → Sys) : (s.modSys f).caps = s.caps := rfl
@[simp] theorem State.modSys_hists (s : State) (f : Sys → Sys) : (s.modSys f).hists = s.hists := rfl
@[simp] theorem State.modSys_joiners (s : State) (f : Sys → Sys) : (s.modSys f).joiners = s.joiners := rfl
@[simp] theorem State.modSys_fifos (s : State) (f : Sys → Sys) : (s.modSys f).fifos = s.fifos := rfl
@[simp] theorem State.modSys_pubs (s : State) (f : Sys → Sys) : (s.modSys f).pubs = s.pubs := rfl
@[simp] theorem State.modSys_pubSwaps (s : State) (f : Sys → Sys) : (s.modSys f).pubSwaps = s.pubSwaps := rfl
@[simp] theorem State.modSys_rd (s : State) (f : Sys → Sys) (b : Nat) : (s.modSys f).rd b = s.rd b := rfl

@[simp] theorem State.modSys_sys (s : State) (f : Sys → Sys) : (s.modSys f).sys = f s.sys := rfl

/-! ### State.modTbl -/

@[simp] theorem State.modTbl_pending (s : State) (n : Nat) (t : Tbl) (f : TblMem → TblMem) : (s.modTbl n t f).pending = s.pending := by cases t <;> rfl
@[simp] theorem State.modTbl_regs (s : State) (n : Nat) (t : Tbl) (f : TblMem → TblMem) : (s.modTbl n t f).regs = s.regs := by cases t <;> rfl
@[simp] theorem State.modTbl_tickno (s : State) (n : Nat) (t : Tbl) (f : TblMem → TblMem) : (s.modTbl n t f).tickno = s.tickno := by cases t <;> rfl
@[simp] theorem State.modTbl_tickAdj (s : State) (n : Nat) (t : Tbl) (f : TblMem → TblMem) : (s.modTbl n t f).tickAdj = s.tickAdj := by cases t <;> rfl
@[simp] theorem State.modTbl_tick1 (s : State) (n : Nat) (t : Tbl) (f : TblMem → TblMem) : (s.modTbl n t f).tick1 = s.tick1 := by cases t <;> rfl
@[simp] theorem State.modTbl_free (s : State) (n : Nat) (t : Tbl) (f : TblMem → TblMem) : (s.modTbl n t f).free = s.free := by cases t <;> rfl
@[simp] theorem State.modTbl_image0 (s : State) (n : Nat) (t : Tbl) (f : TblMem → TblMem) : (s.modTbl n t f).image0 = s.image0 := by cases t <;> rfl
@[simp] theorem State.modTbl_image1 (s : State) (n : Nat) (t : Tbl) (f : TblMem → TblMem) : (s.modTbl n t f).image1 = s.image1 := by cases t <;> rfl
@[simp] theorem State.modTbl_seq0 (s : State) (n : Nat) (t : Tbl) (f : TblMem → TblMem) : (s.modTbl n t f).seq0 = s.seq0 := by cases t <;> rfl
@[simp] theorem State.modTbl_seq1 (s : State) (n : Nat) (t : Tbl) (f : TblMem → TblMem) : (s.modTbl n t f).seq1 = s.seq1 := by cases t <;> rfl
@[simp] theorem State.modTbl_rx (s : State) (n : Nat) (t : Tbl) (f : TblMem → TblMem) : (s.modTbl n t f).rx = s.rx := by cases t <;> rfl
@[simp] theorem State.modTbl_tx (s : State) (n : Nat) (t : Tbl) (f : TblMem → TblMem) : (s.modTbl n t f).tx = s.tx := by cases t <;> rfl
@[simp] theorem State.modTbl_host (s : State) (n : Nat) (t : Tbl) (f : TblMem → TblMem) : (s.modTbl n t f).host = s.host := by cases t <;> rfl
@[simp] theorem State.modTbl_track (s : State) (n : Nat) (t : Tbl) (f : TblMem → TblMem) : (s.modTbl n t f).track = s.track := by cases t <;> rfl
@[simp] theorem State.modTbl_taps (s : State) (n : Nat) (t : Tbl) (f : TblMem → TblMem) : (s.modTbl n t f).taps = s.taps := by cases t <;> rfl
@[simp] theorem State.modTbl_doms (s : State) (n : Nat) (t : Tbl) (f : TblMem → TblMem) : (s.modTbl n t f).doms = s.doms := by cases t <;> rfl
@[simp] theorem State.modTbl_live (s : State) (n : Nat) (t : Tbl) (f : TblMem → TblMem) : (s.modTbl n t f).live = s.live := by cases t <;> rfl
@[simp] theorem State.modTbl_loads (s : State) (n : Nat) (t : Tbl) (f : TblMem → TblMem) : (s.modTbl n t f).loads = s.loads := by cases t <;> rfl
@[simp] theorem State.modTbl_mgmt (s : State) (n : Nat) (t : Tbl) (f : TblMem → TblMem) : (s.modTbl n t f).mgmt = s.mgmt := by cases t <;> rfl
@[simp] theorem State.modTbl_unit (s : State) (n : Nat) (t : Tbl) (f : TblMem → TblMem) : (s.modTbl n t f).unit = s.unit := by cases t <;> rfl
@[simp] theorem State.modTbl_asked (s : State) (n : Nat) (t : Tbl) (f : TblMem → TblMem) : (s.modTbl n t f).asked = s.asked := by cases t <;> rfl
@[simp] theorem State.modTbl_lanes (s : State) (n : Nat) (t : Tbl) (f : TblMem → TblMem) : (s.modTbl n t f).lanes = s.lanes := by cases t <;> rfl
@[simp] theorem State.modTbl_spi (s : State) (n : Nat) (t : Tbl) (f : TblMem → TblMem) : (s.modTbl n t f).spi = s.spi := by cases t <;> rfl
@[simp] theorem State.modTbl_i2c (s : State) (n : Nat) (t : Tbl) (f : TblMem → TblMem) : (s.modTbl n t f).i2c = s.i2c := by cases t <;> rfl
@[simp] theorem State.modTbl_tenon (s : State) (n : Nat) (t : Tbl) (f : TblMem → TblMem) : (s.modTbl n t f).tenon = s.tenon := by cases t <;> rfl
@[simp] theorem State.modTbl_nextRid (s : State) (n : Nat) (t : Tbl) (f : TblMem → TblMem) : (s.modTbl n t f).nextRid = s.nextRid := by cases t <;> rfl
@[simp] theorem State.modTbl_longOps (s : State) (n : Nat) (t : Tbl) (f : TblMem → TblMem) : (s.modTbl n t f).longOps = s.longOps := by cases t <;> rfl
@[simp] theorem State.modTbl_log (s : State) (n : Nat) (t : Tbl) (f : TblMem → TblMem) : (s.modTbl n t f).log = s.log := by cases t <;> rfl
@[simp] theorem State.modTbl_recent (s : State) (n : Nat) (t : Tbl) (f : TblMem → TblMem) : (s.modTbl n t f).recent = s.recent := by cases t <;> rfl
@[simp] theorem State.modTbl_suppr (s : State) (n : Nat) (t : Tbl) (f : TblMem → TblMem) : (s.modTbl n t f).suppr = s.suppr := by cases t <;> rfl
@[simp] theorem State.modTbl_die1Log (s : State) (n : Nat) (t : Tbl) (f : TblMem → TblMem) : (s.modTbl n t f).die1Log = s.die1Log := by cases t <;> rfl
@[simp] theorem State.modTbl_caps (s : State) (n : Nat) (t : Tbl) (f : TblMem → TblMem) : (s.modTbl n t f).caps = s.caps := by cases t <;> rfl
@[simp] theorem State.modTbl_hists (s : State) (n : Nat) (t : Tbl) (f : TblMem → TblMem) : (s.modTbl n t f).hists = s.hists := by cases t <;> rfl
@[simp] theorem State.modTbl_joiners (s : State) (n : Nat) (t : Tbl) (f : TblMem → TblMem) : (s.modTbl n t f).joiners = s.joiners := by cases t <;> rfl
@[simp] theorem State.modTbl_fifos (s : State) (n : Nat) (t : Tbl) (f : TblMem → TblMem) : (s.modTbl n t f).fifos = s.fifos := by cases t <;> rfl
@[simp] theorem State.modTbl_pubs (s : State) (n : Nat) (t : Tbl) (f : TblMem → TblMem) : (s.modTbl n t f).pubs = s.pubs := by cases t <;> rfl
@[simp] theorem State.modTbl_pubSwaps (s : State) (n : Nat) (t : Tbl) (f : TblMem → TblMem) : (s.modTbl n t f).pubSwaps = s.pubSwaps := by cases t <;> rfl
@[simp] theorem State.modTbl_sys (s : State) (n : Nat) (t : Tbl) (f : TblMem → TblMem) : (s.modTbl n t f).sys = s.sys := by cases t <;> rfl
@[simp] theorem State.modTbl_rd (s : State) (n : Nat) (t : Tbl) (f : TblMem → TblMem) (b : Nat) : (s.modTbl n t f).rd b = s.rd b := by cases t <;> rfl

/-! ### State.modTrans -/

@[simp] theorem State.modTrans_pending (s : State) (v : Via) (f : Transport → Transport) : (s.modTrans v f).pending = s.pending := by cases v <;> rfl
@[simp] theorem State.modTrans_regs (s : State) (v : Via) (f : Transport → Transport) : (s.modTrans v f).regs = s.regs := by cases v <;> rfl
@[simp] theorem State.modTrans_tickno (s : State) (v : Via) (f : Transport → Transport) : (s.modTrans v f).tickno = s.tickno := by cases v <;> rfl
@[simp] theorem State.modTrans_tickAdj (s : State) (v : Via) (f : Transport → Transport) : (s.modTrans v f).tickAdj = s.tickAdj := by cases v <;> rfl
@[simp] theorem State.modTrans_tick1 (s : State) (v : Via) (f : Transport → Transport) : (s.modTrans v f).tick1 = s.tick1 := by cases v <;> rfl
@[simp] theorem State.modTrans_free (s : State) (v : Via) (f : Transport → Transport) : (s.modTrans v f).free = s.free := by cases v <;> rfl
@[simp] theorem State.modTrans_image0 (s : State) (v : Via) (f : Transport → Transport) : (s.modTrans v f).image0 = s.image0 := by cases v <;> rfl
@[simp] theorem State.modTrans_image1 (s : State) (v : Via) (f : Transport → Transport) : (s.modTrans v f).image1 = s.image1 := by cases v <;> rfl
@[simp] theorem State.modTrans_seq0 (s : State) (v : Via) (f : Transport → Transport) : (s.modTrans v f).seq0 = s.seq0 := by cases v <;> rfl
@[simp] theorem State.modTrans_seq1 (s : State) (v : Via) (f : Transport → Transport) : (s.modTrans v f).seq1 = s.seq1 := by cases v <;> rfl
@[simp] theorem State.modTrans_rx (s : State) (v : Via) (f : Transport → Transport) : (s.modTrans v f).rx = s.rx := by cases v <;> rfl
@[simp] theorem State.modTrans_tx (s : State) (v : Via) (f : Transport → Transport) : (s.modTrans v f).tx = s.tx := by cases v <;> rfl
@[simp] theorem State.modTrans_host (s : State) (v : Via) (f : Transport → Transport) : (s.modTrans v f).host = s.host := by cases v <;> rfl
@[simp] theorem State.modTrans_ctxT (s : State) (v : Via) (f : Transport → Transport) : (s.modTrans v f).ctxT = s.ctxT := by cases v <;> rfl
@[simp] theorem State.modTrans_shpT (s : State) (v : Via) (f : Transport → Transport) : (s.modTrans v f).shpT = s.shpT := by cases v <;> rfl
@[simp] theorem State.modTrans_track (s : State) (v : Via) (f : Transport → Transport) : (s.modTrans v f).track = s.track := by cases v <;> rfl
@[simp] theorem State.modTrans_taps (s : State) (v : Via) (f : Transport → Transport) : (s.modTrans v f).taps = s.taps := by cases v <;> rfl
@[simp] theorem State.modTrans_doms (s : State) (v : Via) (f : Transport → Transport) : (s.modTrans v f).doms = s.doms := by cases v <;> rfl
@[simp] theorem State.modTrans_live (s : State) (v : Via) (f : Transport → Transport) : (s.modTrans v f).live = s.live := by cases v <;> rfl
@[simp] theorem State.modTrans_loads (s : State) (v : Via) (f : Transport → Transport) : (s.modTrans v f).loads = s.loads := by cases v <;> rfl
@[simp] theorem State.modTrans_mgmt (s : State) (v : Via) (f : Transport → Transport) : (s.modTrans v f).mgmt = s.mgmt := by cases v <;> rfl
@[simp] theorem State.modTrans_unit (s : State) (v : Via) (f : Transport → Transport) : (s.modTrans v f).unit = s.unit := by cases v <;> rfl
@[simp] theorem State.modTrans_asked (s : State) (v : Via) (f : Transport → Transport) : (s.modTrans v f).asked = s.asked := by cases v <;> rfl
@[simp] theorem State.modTrans_lanes (s : State) (v : Via) (f : Transport → Transport) : (s.modTrans v f).lanes = s.lanes := by cases v <;> rfl
@[simp] theorem State.modTrans_nextRid (s : State) (v : Via) (f : Transport → Transport) : (s.modTrans v f).nextRid = s.nextRid := by cases v <;> rfl
@[simp] theorem State.modTrans_longOps (s : State) (v : Via) (f : Transport → Transport) : (s.modTrans v f).longOps = s.longOps := by cases v <;> rfl
@[simp] theorem State.modTrans_log (s : State) (v : Via) (f : Transport → Transport) : (s.modTrans v f).log = s.log := by cases v <;> rfl
@[simp] theorem State.modTrans_recent (s : State) (v : Via) (f : Transport → Transport) : (s.modTrans v f).recent = s.recent := by cases v <;> rfl
@[simp] theorem State.modTrans_suppr (s : State) (v : Via) (f : Transport → Transport) : (s.modTrans v f).suppr = s.suppr := by cases v <;> rfl
@[simp] theorem State.modTrans_die1Log (s : State) (v : Via) (f : Transport → Transport) : (s.modTrans v f).die1Log = s.die1Log := by cases v <;> rfl
@[simp] theorem State.modTrans_caps (s : State) (v : Via) (f : Transport → Transport) : (s.modTrans v f).caps = s.caps := by cases v <;> rfl
@[simp] theorem State.modTrans_hists (s : State) (v : Via) (f : Transport → Transport) : (s.modTrans v f).hists = s.hists := by cases v <;> rfl
@[simp] theorem State.modTrans_joiners (s : State) (v : Via) (f : Transport → Transport) : (s.modTrans v f).joiners = s.joiners := by cases v <;> rfl
@[simp] theorem State.modTrans_fifos (s : State) (v : Via) (f : Transport → Transport) : (s.modTrans v f).fifos = s.fifos := by cases v <;> rfl
@[simp] theorem State.modTrans_pubs (s : State) (v : Via) (f : Transport → Transport) : (s.modTrans v f).pubs = s.pubs := by cases v <;> rfl
@[simp] theorem State.modTrans_pubSwaps (s : State) (v : Via) (f : Transport → Transport) : (s.modTrans v f).pubSwaps = s.pubSwaps := by cases v <;> rfl
@[simp] theorem State.modTrans_sys (s : State) (v : Via) (f : Transport → Transport) : (s.modTrans v f).sys = s.sys := by cases v <;> rfl
@[simp] theorem State.modTrans_rd (s : State) (v : Via) (f : Transport → Transport) (b : Nat) : (s.modTrans v f).rd b = s.rd b := by cases v <;> rfl

end Sys2Proof.Machine
end

