-- ==== Sys2Proof/Laws/Ops.lean ====
section
/-!
SUPPORT. What the shared operations can do, said once: the ending of a meaning, single bits and counters, bytes, the event
log, the interrupt and fault causes, lane states and replies.
-/

namespace Sys2Proof.Machine

/-! ### The ending of a meaning -/

theorem finish_next (s t : State) : finish s (.next t) = .next { t.drive with pending := s.pending } := rfl
/-- A meaning that ends in a next state: what the state holds beside the queue and the two output pins. -/
theorem finish_next_inv {s u : State} {r : Result} (h : finish s r = .next u) :
    ∃ t, r = .next t ∧ u = { t.drive with pending := s.pending } := by
  cases r with
  | next t => exact ⟨t, rfl, by injection h with h; exact h.symm⟩
  | fault e => simp [finish] at h
  | refused e => simp [finish] at h
/-- A command that does nothing leaves the state as it is, its outputs driven. -/
theorem finish_self (s : State) : finish s (.next s) = .next s.drive := rfl
@[simp] theorem State.drive_rd (s : State) (a : Nat) : s.drive.rd a = s.rd a := rfl
@[simp] theorem State.drive_regs (s : State) : s.drive.regs = s.regs := rfl
@[simp] theorem State.drive_pending (s : State) : s.drive.pending = s.pending := rfl
@[simp] theorem State.drive_irq (s : State) : s.drive.sys.pins.irq = s.irqN := rfl
@[simp] theorem State.drive_fault (s : State) : s.drive.sys.pins.fault = s.faultN := rfl

/-! ### Bits and counters -/

theorem testBit_setBit_same (v i : Nat) (b : Bool) : (setBit v i b).testBit i = b := by
  unfold setBit
  by_cases h : v.testBit i = b
  · simp [h]
  · cases b with
    | true =>
      have h' : v.testBit i = false := by cases hv : v.testBit i <;> simp_all
      have hd : v / 2 ^ i % 2 = 0 := by
        have := h'; rw [Nat.testBit_eq_decide_div_mod_eq] at this; simp at this; omega
      have hp : 0 < 2 ^ i := Nat.two_pow_pos i
      simp [h', Nat.testBit_eq_decide_div_mod_eq, Nat.add_div_right _ hp]
      omega
    | false =>
      have h' : v.testBit i = true := by cases hv : v.testBit i <;> simp_all
      have hd : v / 2 ^ i % 2 = 1 := by
        have := h'; rw [Nat.testBit_eq_decide_div_mod_eq] at this; simpa using this
      have hp : 0 < 2 ^ i := Nat.two_pow_pos i
      have hge : 2 ^ i ≤ v := by
        rcases Nat.lt_or_ge v (2 ^ i) with hlt | hge
        · rw [Nat.div_eq_of_lt hlt] at hd; simp at hd
        · exact hge
      have := Nat.sub_mul_div v (2 ^ i) 1
      simp at this
      simp [h', Nat.testBit_eq_decide_div_mod_eq, this]
      omega

theorem State.wrBit_rd_ne (s : State) {a b : Nat} (i : Nat) (v : Bool) (h : a ≠ b) : (s.wrBit a i v).rd b = s.rd b :=
  State.wr_rd_ne s _ h
/-- A bit written within the width of its field reads back. -/
theorem State.wrBit_bit_same (s : State) (a : Nat) {i : Nat} (v : Bool) (h : i < fieldWidth a) :
    (s.wrBit a i v).bit a i = v := by
  simp [State.bit, State.wrBit, State.wr_rd_same, Nat.testBit_mod_two_pow, h, testBit_setBit_same]
theorem State.inc_rd_same (s : State) (a : Nat) : (s.inc a).rd a = (s.rd a + 1) % 2 ^ fieldWidth a := State.wr_rd_same s a _
theorem State.inc_rd_ne (s : State) {a b : Nat} (h : a ≠ b) : (s.inc a).rd b = s.rd b := State.wr_rd_ne s _ h
theorem State.add_rd_same (s : State) (a n : Nat) : (s.add a n).rd a = (s.rd a + n) % 2 ^ fieldWidth a := State.wr_rd_same s a _
theorem State.add_rd_ne (s : State) {a b : Nat} (n : Nat) (h : a ≠ b) : (s.add a n).rd b = s.rd b := State.wr_rd_ne s _ h

/-! ### Bytes -/

@[simp] theorem le_length (n v : Nat) : (le n v).length = n := by
  induction n generalizing v with
  | zero => rfl
  | succ n ih => simp [le, ih]
/-- Little-endian bytes give their value back, cut to their number. -/
theorem unle_le (n v : Nat) : unle (le n v) = v % 256 ^ n := by
  induction n generalizing v with
  | zero => simp [le, unle, Nat.mod_one]
  | succ n ih =>
    have h1 : (byteOf (v % 256)).toNat = v % 256 := by simp [byteOf]
    simp only [le, unle, h1, ih]
    rw [Nat.pow_succ, Nat.mul_comm (256 ^ n), Nat.mod_mul]

/-! ### What an operation touches -/

/-- Beside parameter fields, the event log and what a Tenon port has sent, nothing differs. -/
def Logs (s t : State) : Prop :=
  t = { s with
    regs := t.regs, log := t.log, recent := t.recent, suppr := t.suppr, die1Log := t.die1Log
    sys := { s.sys with ten := { s.sys.ten with ports := t.sys.ten.ports } } }

theorem Logs.refl (s : State) : Logs s s := rfl
theorem Logs.trans {s t u : State} (h : Logs s t) (k : Logs t u) : Logs s u := by
  unfold Logs at *; rw [k, h]
theorem State.wr_logs (s : State) (a v : Nat) : Logs s (s.wr a v) := rfl
theorem State.wrBit_logs (s : State) (a i : Nat) (b : Bool) : Logs s (s.wrBit a i b) := rfl
theorem State.inc_logs (s : State) (a : Nat) : Logs s (s.inc a) := rfl
theorem State.irq_logs (s : State) (i : Nat) : Logs s (s.irq i) := rfl
theorem State.alarm_logs (s : State) : Logs s s.alarm := by unfold State.alarm; split <;> rfl
theorem State.setLog_rd (s : State) (l : List LogEntry) (a : Nat) : State.rd { s with log := l } a = s.rd a := rfl
theorem State.setLog_logs (s : State) (l : List LogEntry) : Logs s { s with log := l } := rfl
theorem State.logPut_logs (s : State) (e : LogEntry) : Logs s (s.logPut e) := by
  unfold State.logPut; simp only; split
  · refine Logs.trans (Logs.trans (Logs.trans ?_ (State.wrBit_logs _ _ _ _)) (State.inc_logs _ _)) (State.inc_logs _ _)
    exact State.setLog_logs s _
  · exact Logs.trans (State.setLog_logs s _) (State.inc_logs _ _)
theorem State.logNow_logs (s : State) (tick : Nat) (a : LogArg) : Logs s (s.logNow tick a) := by
  unfold State.logNow
  have h1 := s.logPut_logs (a.entry tick [])
  have h2 : ∀ u, Logs s u → Logs s (if decide (a.data ≠ []) = true then
      u.logPut ⟨0, tick, 0, false, false, false, false, true, 0, 0, 0, a.data⟩ else u) := by
    intro u hu; split
    · exact hu.trans (u.logPut_logs _)
    · exact hu
  have h3 : ∀ u, Logs s u → Logs s (if a.irq = true ∧ u.bit OBS.IRQ_LEVEL_MASK a.level = true then u.irq 1 else u) := by
    intro u hu; split
    · exact hu.trans (u.irq_logs 1)
    · exact hu
  have h4 : ∀ u, Logs s u → Logs s (if a.irq = true then u.alarm else u) := by
    intro u hu; split
    · exact hu.trans u.alarm_logs
    · exact hu
  exact h4 _ (h3 _ (h2 _ h1))
/-- Logging an event touches the log, its books, fields, and what a Tenon port has sent. -/
theorem State.logEv_logs (s : State) (a : LogArg) : Logs s (s.logEv a) := by
  unfold State.logEv; simp only
  split
  · split
    · rfl
    · exact Logs.refl s
  · split
    · exact s.logNow_logs (s.logTick a) a
    · split
      · split <;> rfl
      · refine Logs.trans (t := { s with
          recent := (s.recent.filter fun x => decide (ticksSince s.tickno x.2.2 < 1024)) ++ [(a.code, a.inst, s.tickno)] })
          ?_ (State.logNow_logs _ _ _)
        rfl
theorem State.faultOn_logs (s : State) (i : Nat) : Logs s (s.faultOn i) := by
  unfold State.faultOn; split
  · exact Logs.refl s
  · exact (s.wrBit_logs _ _ _).trans (State.alarm_logs _)
theorem State.faultOff_logs (s : State) (i : Nat) : Logs s (s.faultOff i) := by
  unfold State.faultOff; split
  · exact (s.wrBit_logs _ _ _).trans (State.alarm_logs _)
  · exact Logs.refl s
theorem State.laneChg_logs (s : State) (i : Nat) : Logs s (s.laneChg i) := rfl
/-- What every step of a fold keeps, the fold keeps. -/
theorem foldl_keeps {α β : Type} (P : β → Prop) (f : β → α → β) (h : ∀ b a, P b → P (f b a)) (l : List α) (b : β) (hb : P b) :
    P (l.foldl f b) := by
  induction l generalizing b with
  | nil => exact hb
  | cons a l ih => exact ih (f b a) (h b a hb)
/-- A change of state of a target marks slots, and touches the Joiners alone (R210). -/
theorem State.tgtChg_joiners (s : State) (tgt : Nat) : s.tgtChg tgt = { s with joiners := (s.tgtChg tgt).joiners } := by
  let P : State → Prop := fun t => t = { s with joiners := t.joiners }
  refine foldl_keeps P _ (fun t d ht => foldl_keeps P _ (fun u k hu => ?_) _ t ht) _ s rfl
  simp only
  split
  · exact congrArg (fun x : State => { x with joiners := (u.modSlot d k fun b => { b with changed := true }).joiners }) hu
  · exact hu
/-- The state of a lane also marks the slots whose target it is (R210). -/
theorem State.setRxState_logs (s : State) (n v : Nat) :
    Logs { s with joiners := (s.setRxState n v).joiners } (s.setRxState n v) := by
  unfold State.setRxState Logs; split
  · rfl
  · rw [State.tgtChg_joiners]; rfl
theorem State.setTxState_logs (s : State) (n v : Nat) : Logs s (s.setTxState n v) := by
  unfold State.setTxState; split <;> rfl
theorem State.setHostState_logs (s : State) (k v : Nat) :
    Logs { s with joiners := (s.setHostState k v).joiners } (s.setHostState k v) := by
  unfold State.setHostState Logs; split
  · rfl
  · rw [State.tgtChg_joiners]; rfl

/-! ### The fields an operation writes -/

/-- Fields a log entry writes (Table 17-8). -/
def logFields : List Nat := [OBS.FLAGS, OBS.LOG_SEQ, OBS.LOG_OLDEST, OBS.LOG_SUPPR_CNT, OBS.IRQ_STAT]

theorem logFields_flags : OBS.FLAGS ∈ logFields := List.mem_cons_self
theorem logFields_suppr : OBS.LOG_SUPPR_CNT ∈ logFields :=
  List.mem_cons_of_mem _ (List.mem_cons_of_mem _ (List.mem_cons_of_mem _ List.mem_cons_self))
theorem logFields_irq : OBS.IRQ_STAT ∈ logFields :=
  List.mem_cons_of_mem _ (List.mem_cons_of_mem _ (List.mem_cons_of_mem _ (List.mem_cons_of_mem _ List.mem_cons_self)))

@[simp] theorem State.alarm_rd (s : State) (a : Nat) : s.alarm.rd a = s.rd a := by
  unfold State.alarm; split <;> rfl
theorem State.logPut_rd (s : State) (e : LogEntry) {a : Nat} (h : a ∉ logFields) : (s.logPut e).rd a = s.rd a := by
  simp only [logFields, List.mem_cons, List.not_mem_nil, or_false, not_or] at h
  obtain ⟨h1, h2, h3, h4, h5⟩ := h
  unfold State.logPut; simp only
  split
  · rw [State.inc_rd_ne _ (Ne.symm h2), State.inc_rd_ne _ (Ne.symm h3), State.wrBit_rd_ne _ _ _ (Ne.symm h1)]
    exact State.setLog_rd s _ a
  · rw [State.inc_rd_ne _ (Ne.symm h2)]
    exact State.setLog_rd s _ a
theorem State.logNow_rd (s : State) (tick : Nat) (e : LogArg) {a : Nat} (h : a ∉ logFields) : (s.logNow tick e).rd a = s.rd a := by
  have h5 : OBS.IRQ_STAT ≠ a := by intro hh; subst hh; exact h logFields_irq
  unfold State.logNow
  have h1 := s.logPut_rd (e.entry tick []) h
  have h2 : ∀ u : State, u.rd a = s.rd a → (if decide (e.data ≠ []) = true then
      u.logPut ⟨0, tick, 0, false, false, false, false, true, 0, 0, 0, e.data⟩ else u).rd a = s.rd a := by
    intro u hu; split
    · rw [u.logPut_rd _ h, hu]
    · exact hu
  have h3 : ∀ u : State, u.rd a = s.rd a →
      (if e.irq = true ∧ u.bit OBS.IRQ_LEVEL_MASK e.level = true then u.irq 1 else u).rd a = s.rd a := by
    intro u hu; split
    · rw [State.irq, State.wrBit_rd_ne _ _ _ h5, hu]
    · exact hu
  have h4 : ∀ u : State, u.rd a = s.rd a → (if e.irq = true then u.alarm else u).rd a = s.rd a := by
    intro u hu; split
    · rw [u.alarm_rd, hu]
    · exact hu
  exact h4 _ (h3 _ (h2 _ h1))
/-- Logging an event writes no field but those of the log and IRQ_STAT. -/
theorem State.logEv_rd (s : State) (e : LogArg) {a : Nat} (h : a ∉ logFields) : (s.logEv e).rd a = s.rd a := by
  have h1 : OBS.FLAGS ≠ a := by intro hh; subst hh; exact h logFields_flags
  have h4 : OBS.LOG_SUPPR_CNT ≠ a := by intro hh; subst hh; exact h logFields_suppr
  unfold State.logEv; simp only
  split
  · split
    · exact State.wrBit_rd_ne _ _ _ h1
    · rfl
  · split
    · exact s.logNow_rd (s.logTick e) e h
    · split
      · have : ((s.inc OBS.LOG_SUPPR_CNT).wrBit OBS.FLAGS 1 true).rd a = s.rd a := by
          rw [State.wrBit_rd_ne _ _ _ h1, State.inc_rd_ne _ h4]
        split <;> exact this
      · exact State.logNow_rd _ _ e h
theorem State.faultOn_rd (s : State) (i : Nat) {a : Nat} (h : OBS.FAULT_STAT ≠ a) : (s.faultOn i).rd a = s.rd a := by
  unfold State.faultOn; split
  · rfl
  · rw [State.alarm_rd, State.wrBit_rd_ne _ _ _ h]
theorem State.faultOff_rd (s : State) (i : Nat) {a : Nat} (h : OBS.FAULT_STAT ≠ a) : (s.faultOff i).rd a = s.rd a := by
  unfold State.faultOff; split
  · rw [State.alarm_rd, State.wrBit_rd_ne _ _ _ h]
  · rfl

/-! ### Replies -/

/-- A reply joins the queue of its transport. -/
theorem State.reply_replies (s : State) (r : ReqRef) (st : Status) (final : Bool) (b : Body) :
    ((s.reply r st final b).trans r.via).replies = (s.trans r.via).replies ++ [⟨r, st, s.tickno % 65536, b, final⟩] := by
  rcases r with ⟨rid, via, tag, op, notify, pre⟩
  cases via <;> cases notify <;> rfl
/-- A reply leaves every other transport alone. -/
theorem State.reply_trans_ne (s : State) (r : ReqRef) (st : Status) (final : Bool) (b : Body) {v : Via} (h : v ≠ r.via) :
    (s.reply r st final b).trans v = s.trans v := by
  rcases r with ⟨rid, via, tag, op, notify, pre⟩
  cases via <;> cases v <;> cases notify <;> first | rfl | exact absurd rfl h
/-- A reply writes no field but IRQ_STAT. -/
theorem State.reply_rd (s : State) (r : ReqRef) (st : Status) (final : Bool) (b : Body) {a : Nat} (h : OBS.IRQ_STAT ≠ a) :
    (s.reply r st final b).rd a = s.rd a := by
  unfold State.reply; simp only; split
  · rw [State.irq, State.wrBit_rd_ne _ _ _ h, State.modTrans_rd]
  · rw [State.modTrans_rd]
/-- Beside the transports and fields a reply touches nothing. -/
theorem State.reply_keeps (s : State) (r : ReqRef) (st : Status) (final : Bool) (b : Body) :
    let t := s.reply r st final b
    t = { s with regs := t.regs, spi := t.spi, i2c := t.i2c, tenon := t.tenon } := by
  rcases r with ⟨rid, via, tag, op, notify, pre⟩
  cases via <;> cases notify <;> rfl

/-! ### Power domains and free values -/

theorem State.faultCheck_logs (s : State) : Logs s s.faultCheck := by
  unfold State.faultCheck; split
  · exact Logs.refl s
  · exact s.faultOff_logs 5
/-- A domain takes its state; beside FAULT_STAT no other field changes. -/
theorem State.setDom_rd_ne (s : State) (i v : Nat) {a : Nat} (h : PWR.DOM_STATE i ≠ a) (h5 : OBS.FAULT_STAT ≠ a) :
    (s.setDom i v).rd a = s.rd a := by
  unfold State.setDom State.faultCheck; split
  · split
    · exact State.wr_rd_ne _ _ h
    · rw [State.faultOff_rd _ _ h5, State.wr_rd_ne _ _ h]
  · exact State.wr_rd_ne _ _ h
/-- A free value is drawn by counting it off; nothing else changes. -/
theorem State.draw_snd (s : State) : s.draw.2 = { s with free := s.free + 1 } := rfl

end Sys2Proof.Machine
end

