-- ==== Sys2Proof/Tests/Slice0.lean ====
section
/-!
SUPPORT. Small checks: ill-formed operands are refused, commands complete on small states, and for every obligation
with hypotheses a concrete state and operands that meet them.
-/

namespace Sys2Proof.Tests

open Sys2Proof.Machine Sys2Proof.Spec

/-! ### Small states -/

/-- A state with these fields written. -/
def puts (s : State) (l : List (Nat × Nat)) : State := l.foldl (fun s x => s.wr x.1 x.2) s

/-- The state after reset with these fields written. -/
def st (l : List (Nat × Nat)) : State := puts State.reset l

/-- The same with a management controller that serves. -/
def serving (l : List (Nat × Nat)) : State := (st l).modSys fun y => { y with mcState := 2 }

/-- A request on SPI with tag 7. -/
def req (ps : List Byte) : Request := ⟨.spi, 7, 0, ps⟩

/-- The state after reset with Joiner 0 changed. -/
def jst (f : Joiner → Joiner) : State := State.reset.modJn 0 f

/-- Joiner 0 issues bundles of slot 0. -/
def busy (j : Joiner) : Joiner := { j with slot := some 0 }

/-- The next state of an outcome, the state after reset where there is none. -/
def after (r : Result) : State :=
  match r with
  | .next t => t
  | .fault _ => State.reset
  | .refused _ => State.reset

/-- Does the outcome refuse this command as ill formed? -/
def illFormed (r : Result) (mn : String) : Bool :=
  match r with
  | .refused (.illFormed m) => decide (m = mn)
  | _ => false

/-! ### Ill-formed operands (WellFormed) -/

/-- Operands of a boundary at which nothing was measured. -/
def facts : TickFacts :=
  { own1 := false
    lineLow := List.replicate 8 0
    hostLow := List.replicate 16 0
    cdr := List.replicate 16 0
    slips := List.replicate 16 false
    ebuf := List.replicate 16 0
    mismatch := []
    trims := List.replicate 8 [] }

/-- A measurement of every slice, and of every sub-DAC, all alike. -/
def slices (m : SliceMeas) : List SliceMeas := List.replicate 66 m
def subDacs (m : TrimMeas) : List TrimMeas := List.replicate 4 m

theorem test_short_rx_word_refused :
    illFormed (exec (.lineRxWord 0 (List.replicate 127 0) [0, 0] [] []) State.reset) "LINE_RX_WORD" = true := by
  decide +kernel

theorem test_long_tx_word_refused :
    illFormed (exec (.lineTxWord 0 (List.replicate 60 0) (List.replicate 61 0) []) State.reset) "LINE_TX_WORD" = true := by
  decide +kernel

theorem test_facts_of_seven_lanes_refused :
    illFormed (exec (.tickBoundary { facts with lineLow := List.replicate 7 0 }) State.reset) "TICK_BOUNDARY" = true := by
  decide +kernel

theorem test_moments_of_three_levels_refused :
    illFormed (exec (.qualityWindowEnd (List.replicate 8 []) []) State.reset) "QUALITY_WINDOW_END" = true := by
  decide +kernel

theorem test_list_lengths_refused :
    illFormed (exec (.rxCalComplete 0 (slices ⟨0, 0, 0, 0, 0⟩) [] false) State.reset) "RX_CAL_COMPLETE" = true ∧
    illFormed (exec (.rxCalTimeout 0 [⟨0, 0, 0, 0, 0⟩]) State.reset) "RX_CAL_TIMEOUT" = true ∧
    illFormed (exec (.txCalComplete 0 (subDacs ⟨0, 0, 0, 0⟩) [] 0) State.reset) "TX_CAL_COMPLETE" = true ∧
    illFormed (exec (.txCalTimeout 0 [⟨0, 0, 0, 0⟩]) State.reset) "TX_CAL_TIMEOUT" = true ∧
    illFormed (exec (.hostTapAlign 0 ⟨true, [0, 0, 0]⟩) State.reset) "HOST_TAP_ALIGN" = true ∧
    illFormed (exec (.thermalSample 0 [0]) State.reset) "THERMAL_SAMPLE" = true := by decide +kernel

/-- The opcode table gives no row bits. -/
theorem test_no_word_is_a_command : decodeTableWord 8 0xA7 = none ∧ State.reset.withFetchWord 8 0xA7 = State.reset := ⟨rfl, rfl⟩

/-! ### Whole machine and requests -/


/-! ### Witnesses: the queue and the requests -/

theorem witness_StepRunsFrontCommand : State.reset.pending = [] := rfl

theorem witness_CommandsTakenInOrder :
    (∃ t, exec .i2cSclTimeout State.reset = .next t) ∧
    ∃ s t, s.pending = [.i2cSclTimeout] ++ [.replyRead .spi false] ∧ core.run 1 s = .next t :=
  ⟨⟨_, rfl⟩, { State.reset with pending := [.i2cSclTimeout, .replyRead .spi false] }, _, rfl, rfl⟩

theorem witness_InterruptLinesFollowCauses :
    (∃ t, exec .i2cSclTimeout State.reset = .next t) ∧ Safety.linesTrue State.reset = true ∧ ∃ t, step State.reset = .next t :=
  ⟨⟨_, rfl⟩, by decide +kernel, _, rfl⟩

theorem witness_FieldWritesKeepOneCanonicalMap : State.reset.regs.wf = true := rfl

theorem witness_GoodPacketIsItsRequest : (Instr.identify, 0x01) ∈ requestRows ∧ (List.replicate 4096 (0 : Byte)).length ≤ 4096 :=
  ⟨by simp [requestRows], Nat.le_of_eq List.length_replicate⟩

/-- The packet of IDENTIFY under another sync byte, cut short, and with another opcode or CRC. -/
theorem witness_BadPacketsAreRejected :
    (let good := requestBytes 1 7 0 []
     let other := requestBytes 0 7 0 []
     good.getD 0 0 = 0xA7 ∧ (0x55 :: good.drop 1).getD 0 0 ≠ 0xA7 ∧ (State.reset.trans .spi).outstanding.length < 4 ∧
     (good.take 9).getD 0 0 = 0xA7 ∧ (good.take 9).length ≠ getLe (good.take 9) 4 2 + 10 ∧
     getLe (good.take 8 ++ [0, 0]) (getLe (good.take 8 ++ [0, 0]) 4 2 + 8) 2 ≠ (crc16 ((good.take 8 ++ [0, 0]).take 8)).toNat ∧
     other.getD 0 0 = 0xA7 ∧ getLe other 4 2 ≤ 4096 ∧ other.length = getLe other 4 2 + 10 ∧
     getLe other 8 2 = (crc16 (other.take 8)).toNat ∧ getLe other 1 1 ∉ opcodes) ∧
    4096 < getLe [0xA7, 1, 7, 0, 1, 16, 0, 0] 4 2 := by decide +kernel

/-- A transport with these outstanding requests of tag 7. -/
def crowded (n : Nat) (s : State) : State :=
  s.modTrans .spi fun t => { t with outstanding := List.replicate n ⟨0, .spi, 7, 1, false, []⟩ }

theorem witness_RequestsRefusedInOrder :
    (Instr.identify, 0x01) ∈ requestRows ∧ (Instr.wake, 0x41) ∈ requestRows ∧
    (let r := req []
     let free := fun (s : State) => (s.trans .spi).replies.length < 8 ∧ (s.trans .spi).outstanding.length < 4 ∧
       ∀ y ∈ (s.trans .spi).outstanding, y.tag ≠ r.tag
     (((crowded 4 State.reset).trans .spi).replies.length < 8 ∧ 4 ≤ ((crowded 4 State.reset).trans .spi).outstanding.length) ∧
     (((crowded 3 State.reset).trans .spi).outstanding.length < 4 ∧
       ∃ y ∈ ((crowded 3 State.reset).trans .spi).outstanding, y.tag = r.tag) ∧
     free State.reset ∧ bits (0x40 : Byte).toNat 6 1 ≠ 0 ∧
     (bits (0x80 : Byte).toNat 6 1 = 0 ∧ (0x80 : Byte).getLsbD 7 = true ∧ State.reset.rd DEV.ROLE ≠ 1) ∧
     ((st [(DEV.ROLE, 1)]).rd DEV.ROLE = 1 ∧ bits r.flags.toNat 6 1 = 0 ∧ r.flags.getLsbD 7 = false) ∧
     (free (st [(PWR.STATE, 2)]) ∧ 2 ≤ (st [(PWR.STATE, 2)]).rd PWR.STATE ∧ 0x01 ≠ 0x41) ∧
     (let s := State.reset.modSys fun y => { y with mcState := 6 }
      free s ∧ s.rd PWR.STATE < 2 ∧ s.sys.mcState = 6 ∧ 0x41 ∉ [0x01, 0x02, 0x13, 0x7E]) ∧
     State.reset.rd PWR.STATE < 2 ∧ State.reset.sys.mcState ≠ 2 ∧ State.reset.sys.mcState ≠ 6 ∧
     State.reset.sys.recovery = false) :=
  ⟨by simp [requestRows], by simp [requestRows], by decide +kernel⟩

theorem witness_ReplyReadTakesHead :
    (∃ x rest, (((serving []).reject 1 (req []) .badOpcode).trans .spi).replies = x :: rest ∧ x.final = true ∧
      (((serving []).reject 1 (req []) .badOpcode).trans .spi).waiting = [] ∧ Via.spi ≠ .tenon) ∧
    (State.reset.trans .i2c).replies = [] := ⟨⟨_, _, rfl, rfl, rfl, by decide⟩, rfl⟩

theorem witness_StatusBlockAndTransportEvents :
    ∃ o : LongOp, { State.reset with longOps := [⟨⟨0, .spi, 7, 0x30, false, []⟩, 0, 0, 0, 0, 0, 0⟩] }.longOps[0]? = some o := ⟨_, rfl⟩

/-- An operation that runs under tag 9. -/
def op9 : LongOp := ⟨⟨0, .spi, 9, 0x30, false, []⟩, 0, 1, 50, 10, 10, 0⟩

theorem witness_InformationRequestsReply :
    Served (serving []) (req []) ∧
    (Served { serving [] with longOps := [op9] } (req [1, 9, 0]) ∧
      [op9].find? (fun o => decide (o.ref.via = .spi ∧ o.ref.tag = 9)) = some op9) ∧
    (let ps : List Byte := [1, 0, 0, 0] ++ le 4 DEV.QUAL_WIN
     getLe ps 0 2 = 1 ∧ getLe ps 2 2 = 0 ∧ ps.length = 4 + 4 * 1 ∧ getLe ps 4 4 = DEV.QUAL_WIN ∧
     (∀ a ∈ addrs ps 1, (fieldRow a).isSome ∧ isRing a = false ∧ a ≠ THM.FLAGS) ∧ (fieldRow DEV.QUAL_WIN).isSome = true ∧
     ((serving []).dom ((serving []).domOfAddr DEV.QUAL_WIN)).commit = none) ∧
    (let ps : List Byte := [84, 1, 0, 0] ++ (List.replicate 340 (le 4 DEV.QUAL_WIN)).flatten
     getLe ps 0 2 = 340 ∧ ps.length = 4 + 4 * 340) ∧
    (let ps : List Byte := [1, 0, 0, 0] ++ le 4 (LRX.STATE 0)
     getLe ps 0 2 = 1 ∧ getLe ps 2 2 = 0 ∧ ps.length = 4 + 4 * 1 ∧ ∀ a ∈ addrs ps 1, imaged 0 a = true) ∧
    (let ps : List Byte := [0xFF, 0xFF, 0xFF, 0xFF, 1, 0, 0, 0]
     getLe ps 0 4 = 0xFFFFFFFF ∧ getLe ps 4 1 = 1 ∧ getLe ps 5 3 = 0 ∧ ps.length = 8) ∧
    (((serving []).modRx 7 fun x => { x with llr := List.replicate 228 0 }).rxL 7).llr.length = 228 ∧
    (let s := serving [(OBS.CAP_WPOS 7, 16384)]
     let ps : List Byte := [7, 2, 255, 0, 0, 0, 0, 0]
     Served s (req ps) ∧ s.rd (OBS.CAP_WPOS 7) - 0 ≤ 16384 ∧ s.rd (OBS.CAP_WPOS 7) < 2 ^ 32 ∧ (s.cap 7).bad = [] ∧ ps.length = 8 ∧
     getLe ps 0 1 = 7 ∧ getLe ps 1 1 = 2 ∧ getLe ps 2 2 = 255 ∧ getLe ps 4 4 = 0) := by
  and_intros <;> decide +kernel

/-- The parameters of a request of one entry. -/
def entry (a v : Nat) : List Byte := [1, 0, 0, 0] ++ le 4 a ++ le 8 v

theorem witness_StagingAndLiveWrites :
    (∀ a ∈ [LTX.SWING 0, LRX.STATE 0, DEV.PACKAGE, LTX.SQUELCH 0, 0x00020FFF],
      Served (serving []) (req (entry a 1)) ∧ (entry a 1).length = 16 ∧ getLe (entry a 1) 0 2 = 1 ∧ getLe (entry a 1) 2 2 = 0 ∧
      getLe (entry a 1) 4 4 = a ∧ getLe (entry a 1) 8 8 = 1 ∧ instOf a ≠ 0xFF) ∧
    fieldCls 0x00020FFF = none ∧ fieldCls (LRX.STATE 0) = some .ro ∧
    (serving []).stageBar (LTX.SWING 0) = none ∧ (∀ d ∈ (serving []).doms, d.staged.length < 2048) ∧
    (fieldCls (LTX.SWING 0) ≠ some .l ∧ fieldCls (LTX.SWING 0) ≠ none) ∧
    (fieldCls (LTX.SQUELCH 0) = some .l ∧ 2 ^ fieldWidth (LTX.SQUELCH 0) ≤ 2) ∧
    (serving []).liveBar (LTX.SQUELCH 0) 1 = none := by decide +kernel

theorem witness_FieldLiveWritesAreQueued :
    ((fun v g x => Instr.seqGo v g x, HK.SEQ_GO) ∈ liveRows ∧ Served (serving []) ⟨.i2c, 0xFF, 0, []⟩ ∧
      (serving []).liveBar HK.SEQ_GO 1 = none) ∧
    (∀ f ∈ [(true, false), (false, true)],
      let s := (serving []).modSys fun y => { y with txDis := f.1, thermShut := f.2 }
      Served s ⟨.spi, 7, 0, []⟩ ∧ s.sys.bridgeLost = false ∧ s.sys.txDis = f.1 ∧ s.sys.thermShut = f.2) ∧
    ((0x800000 : BitVec 64) ≠ 0 ∧ (0x800000 : BitVec 64).toNat < 2 ^ 24) ∧
    (let s := serving [(BDAC.LOOP_CFG 23, 2 ^ 31)]
     Served s ⟨.spi, 7, 0, []⟩ ∧ bits (s.rd (BDAC.LOOP_CFG 23)) 31 31 = 1 ∧ (0 : BitVec 64).toNat < 2 ^ fieldWidth (BDAC.CODE 23)) ∧
    (let s := (serving []).modSys fun y => { y with pins := { y.pins with pgCore := false } }
     Served s ⟨.spi, 7, 0, []⟩ ∧ s.supplyBad = true) := by
  refine ⟨⟨?_, ?_, ?_⟩, ?_, ?_, ?_, ?_⟩
  · simp [liveRows]
  all_goals decide +kernel

/-- A serving device with these staged writes in domain 0. -/
def stagedIn (l : List (Nat × Nat)) : State := (serving []).modDom 0 fun d => { d with staged := l }

/-- The parameters of a request with a target TICKNO. -/
def target (a b c t : Nat) : List Byte := le 1 a ++ le 1 b ++ le 2 c ++ le 8 t

theorem witness_CommitFreezesAndDiscardClears :
    (let ps := le 8 100 ++ le 4 0
     (∀ l ∈ [[], [(LTX.SWING 0, 22)], [(LTX.SWING 0, 200)]], Served (stagedIn l) (req ps)) ∧
     ps.length = 12 ∧ getLe ps 0 8 = 100 ∧ getLe ps 8 4 = 0 ∧ 0 < 100 ∧ 100 < 2 ^ 48) ∧
    (((serving []).modDom 0 fun d => { d with commit := some ⟨100, false, [], [], none, ⟨0, .spi, 1, 0x18, false, []⟩⟩ }).dom
      0).commit.isSome = true ∧
    (let m := (stagedIn []).dom 0
     m.commit = none ∧ m.staged = [] ∧ m.held = [] ∧ m.bundle = none) ∧
    (let s := stagedIn [(LTX.SWING 0, 22)]
     let h := s.hold (s.refFor 0x18 (req []))
     (s.dom 0).commit = none ∧ (s.dom 0).staged ≠ [] ∧ s.sys.bridgeLost = false ∧ ({ h.cand (s.dom 0) with target := some 100 }).fail = none ∧
     (∀ x ∈ (s.dom 0).staged, fieldCls x.1 = some .k → h.ownerUp x.1 (some 100) = false) ∧
     h.notResident 0 (s.dom 0) = none ∧ s.leadOk 100 = true) ∧
    (let s := stagedIn [(LTX.SWING 0, 200)]
     ({ (s.hold (s.refFor 0x18 (req []))).cand (s.dom 0) with target := some 100 }).fail = some ("RESERVED", LTX.SWING 0)) ∧
    Served (serving []) (req [0, 0, 0, 0]) := by
  and_intros <;> decide +kernel

theorem witness_LaneAndUnitRequestsQueue :
    (∀ l ∈ [0, 1], Served (serving [(DEV.REF_STATE, 1)]) (req (target l 0 0 100)) ∧ (target l 0 0 100).length = 12 ∧
      getLe (target l 0 0 100) 0 1 = l ∧ getLe (target l 0 0 100) 1 1 = 0 ∧ getLe (target l 0 0 100) 2 2 = 0 ∧
      getLe (target l 0 0 100) 4 8 = 100) ∧
    (∃ q ∈ ({ serving [] with lanes := [⟨false, 1, 0, 50, none⟩] } : State).lanes, q.line &&& 1 ≠ 0) ∧
    (let s := serving [(DEV.REF_STATE, 1)]
     s.split = false ∧ s.lanes = [] ∧ s.leadOk 100 = true ∧ s.rd DEV.REF_STATE ≠ 0 ∧ s.sys.refcal = none ∧
     s.sys.thermShut = false ∧ s.noJoiner = false ∧ s.laneConflict 1 0 100 = none) ∧
    (∀ ps ∈ [([4, 7, 3, 0] : List Byte), [0, 7, 65, 0]], Served (serving []) (req ps) ∧ ps.length = 4 ∧ getLe ps 1 1 = 7 ∧
      getLe ps 3 1 = 0) ∧
    ((serving []).unit = none ∧ (serving []).sliceServes 7 65 = false) ∧
    (∀ v ∈ [0, 3, 1], Served (serving [(LRX.STATE 7, v)]) (req [0, byteOf 7, 0, 0]) ∧
      ((serving [(LRX.STATE 7, v)]).findOp 0x30 7).isNone = true ∧ (serving [(LRX.STATE 7, v)]).rd (LRX.STATE 7) = v) ∧
    (∀ step ∈ [0, 1, 3],
      let ps := le 1 31 ++ le 1 step ++ le 2 0 ++ le 4 5
      Served (serving []) (req ps) ∧ ps.length = 8 ∧ getLe ps 0 1 = 31 ∧ getLe ps 1 1 = step ∧ getLe ps 2 2 = 0 ∧
      ((serving []).findOp 0x31 0).isNone = true) := by
  and_intros <;> decide +kernel

theorem witness_LongRequestsStart :
    (∀ x ∈ [(49, 0), (50, 0), (50, 0x18), (1500000, 0x1F)],
      let ps := le 4 x.1 ++ le 2 x.2 ++ [1, 0]
      Served (serving []) (req ps) ∧ ps.length = 8 ∧ getLe ps 0 4 = x.1 ∧ getLe ps 4 2 = x.2 ∧ x.2 < 32 ∧ getLe ps 6 1 ≤ 1 ∧
      getLe ps 7 1 = 0) ∧
    (0x18 &&& 0x18 ≠ 0 ∧ (serving []).sys.power.sleep = none ∧ (serving []).entryRefuser 1 = none ∧
      (serving []).entryRefuser 3 = none) ∧
    (Served (serving []) (req []) ∧ (serving []).rd PWR.STATE = 0 ∧ (serving []).sys.power.wake = 0 ∧
      (serving []).sys.power.entry = 0) ∧
    (let ps := target 1 0 0 (2 ^ 48 - 1)
     Served (serving []) (req ps) ∧ ps.length = 12 ∧ getLe ps 0 1 ≤ 1 ∧ getLe ps 1 3 = 0 ∧ getLe ps 4 8 = 2 ^ 48 - 1 ∧
     (serving []).sys.power.shutdown = none ∧ (serving []).leadOk 100 = true) ∧
    (let ps : List Byte := [9, 7, 0, 0, 0, 0, 1, 0, 5, 0]
     Served (serving []) (req ps) ∧ getLe ps 0 1 = 9 ∧ getLe ps 1 1 = 7 ∧ getLe ps 2 1 = 0 ∧ getLe ps 3 1 = 0 ∧
     getLe ps 4 2 = 0 ∧ getLe ps 6 2 = 1 ∧ ps.length = 8 + 2 * 1 ∧ (serving []).loads = []) ∧
    (∀ l ∈ [0, 1],
      let ps := (if l = 0 then [3, 0, 0, 0] else [1, 0, 0, 1]) ++ le 4 0
      Served (serving []) (req ps) ∧ getLe ps 0 1 = (if l = 0 then 3 else 1) ∧ getLe ps 1 1 = 0 ∧ getLe ps 2 1 = 0 ∧
      getLe ps 3 1 = l ∧ getLe ps 4 4 = 0 ∧ ps.length = 8) ∧
    ((serving []).opRuns 0x52 = false ∧ (serving []).noFlash = false) ∧
    (let ps := le 1 7 ++ [5, 4, 0] ++ le 4 16383 ++ le 4 1 ++ le 8 (2 ^ 48 - 1)
     let s := serving [(LRX.STATE 7, 3)]
     Served s (req ps) ∧ ps.length = 20 ∧ getLe ps 0 1 = 7 ∧ getLe ps 1 1 = 5 ∧ getLe ps 2 1 = 4 ∧ getLe ps 3 1 = 0 ∧
     getLe ps 4 4 = 16383 ∧ getLe ps 8 4 = 1 ∧ getLe ps 12 8 = 2 ^ 48 - 1 ∧ s.rd (LRX.STATE 7) ≠ 0 ∧
     s.rd (OBS.CAP_STATE 7) = 0) ∧
    (let ps : List Byte := [2, 0, 0, 0, 0, 0, 0, 0, 1, 0, 0, 0, 0xAA]
     let s := serving []
     Served s (req ps) ∧ 12 ≤ ps.length ∧ getLe ps 0 1 = 2 ∧ getLe ps 1 1 = 0 ∧ getLe ps 2 2 = 0 ∧ getLe ps 4 4 = 0 ∧
     getLe ps 8 1 = 1 ∧ getLe ps 9 3 = 0 ∧ s.opRuns 0x70 = false ∧ s.opRuns 0x71 = false ∧ s.sys.images.write = none ∧
     s.newest 2 = none) ∧
    Served (serving []) (req [0, 1, 0, 0]) ∧
    (Served (serving []) (req [0, 0, 0, 0]) ∧ (∀ d ∈ (serving []).doms, d.commit = none) ∧ (serving []).longOps = [] ∧
      (serving []).newest 0 = none) := by
  and_intros <;> decide +kernel

/-! ### Witnesses: the Joiners -/

/-- A bundle with nothing in flight that takes a Y syllable. -/
theorem yOpen {s : State} {d : Die} {lat : Nat} (dests : List Nat) (stall : Nat) (h1 : (s.jn d.val).issuing = true)
    (h2 : (s.jn d.val).branch = none) (h3 : (s.jn d.val).xDest = none) (h4 : (s.jn d.val).flights = [])
    (h5 : (s.jn d.val).xFlights = []) (h6 : (s.jn d.val).bundleOk = true) (h7 : (s.jn d.val).badBranch = none)
    (h8 : (s.jn d.val).cycle + stall + max lat (s.jn d.val).xLat < (s.jn d.val).slotLen) : YOpen s d dests stall lat :=
  ⟨h1, h6, h2, h7, fun x h => by simp [h3] at h, fun f h => by simp [h4] at h, fun f h => by simp [h5] at h, h8⟩

theorem quietStores {j : Joiner} (h : j.flights = []) : noStores j := fun f hf => by simp [h] at hf

/-- Joiner 0 issues and every address register holds this value. -/
def based (v : Nat) : State := jst fun j => { busy j with a := List.replicate 16 (BitVec.ofNat 32 v) }

theorem legal_based (v : Nat) : ((based v).jn 0).bundleOk = true := by
  have h : ((based v).jn 0).bundleOk = ((jst busy).jn 0).bundleOk := rfl
  rw [h]
  decide +kernel

/-- Joiner 0 runs a USER slot. -/
def userRuns (f : Joiner → Joiner) : State := (jst fun j => f (busy j)).wr (JNR.SCHED 0 0) (6 * 2 ^ 29)

/-- One result of an earlier bundle arrives with the bundle being completed. -/
def arriving (e : Eff) (s : State) : State :=
  s.modJn 0 fun j => { j with cycle := 5, flights := [⟨4, 6, 6, e⟩] }

theorem witness_VectorArithmeticIssues : XOpen (jst busy) 0 ∧ (15 : BitVec 5).toNat < 16 :=
  ⟨⟨by decide +kernel, by decide +kernel, by decide +kernel⟩, by decide⟩

theorem witness_VectorBitsAndComparesIssue :
    XOpen (jst busy) 0 ∧ ¬ XOpen State.reset 0 ∧ (15 : BitVec 5).toNat < 16 ∧ (7 : BitVec 3) ≠ 0 :=
  ⟨⟨by decide +kernel, by decide +kernel, by decide +kernel⟩, fun h => absurd h.1 (by decide +kernel), by decide, by decide⟩

theorem witness_MacGroupAndNormalisationIssue : XOpen (jst busy) 0 :=
  ⟨by decide +kernel, by decide +kernel, by decide +kernel⟩

theorem witness_ScalarAndAddressComplete :
    (∀ dests, YOpen (jst busy) 0 dests) ∧ (7 : BitVec 4).toNat < 8 :=
  ⟨fun d => yOpen d 0 (by decide +kernel) (by decide +kernel) (by decide +kernel) (by decide +kernel) (by decide +kernel) (by decide +kernel) (by decide +kernel) (by decide +kernel), by decide⟩

theorem witness_TransfersAndSpecialsComplete :
    (∀ dests, YOpen (jst busy) 0 dests) ∧ (jst busy).isUser 0 = false ∧ (9 : BitVec 4).toNat ≥ 8 ∧ (7 : BitVec 4).toNat < 8 ∧
    (14 : BitVec 4).toNat % 2 = 0 ∧ ((userRuns id).isUser 0 = true ∧ (userRuns id).bit (JNR.COUNTER_GRANT 0) 7 = false) ∧
    ((userRuns id).wr (JNR.COUNTER_GRANT 0) 0x1FF).bit (JNR.COUNTER_GRANT 0) 8 = true :=
  ⟨fun d => yOpen d 0 (by decide +kernel) (by decide +kernel) (by decide +kernel) (by decide +kernel) (by decide +kernel) (by decide +kernel) (by decide +kernel) (by decide +kernel),
    by decide +kernel, by decide, by decide, by decide, by decide +kernel, by decide +kernel⟩

/-- The plain address mode with offset 0, the post-modify mode, and the plain mode gated by stage 1. -/
def plain : Mem := ⟨0, 0, 0, 0, 0⟩
def post : Mem := ⟨0, 0, 1, 0, 0⟩
def staged1 : Mem := ⟨0, 0, 0, 5, 0⟩

/-- Joiner 0 in the first of two bodies of a ROT block of two stages: stage 1 is off. -/
def rotating : State := jst fun j => { busy j with rep := some ⟨8, 2, 1, 0, 1, true, 2, false⟩ }

theorem witness_LoadsComplete :
    (∀ v dests, YOpen (based v) 0 dests 0 3 ∧ YOpen (based v) 0 dests 0) ∧ (∀ dests, YOpen (based 0x80000) 0 dests 36 3) ∧
    (∀ n ∈ [64, 2, 4], ∀ ea ∈ [0, 0x7FFC0], At ((based ea).jn 0) plain n ea (BitVec.ofNat 32 ea) ∧ ea < 0x80000 ∧
      noStores ((based ea).jn 0) ∧ (based ea).mayRead 0 ea n = true) ∧
    (let ea := 0x80000 + 0x4000 * 23 + 0x2000 * 1 + 16 * 508
     let held : State := { based ea with fifos := modNth .reset (based ea).fifos 23 fun f => f.modBank 1 fun b => { b with full := true } }
     At ((based ea).jn 0) plain 64 ea (BitVec.ofNat 32 ea) ∧ (based ea).mayCapture 0 23 = true ∧
     (((based ea).fifo 23).bank 1).full = false ∧ ((held.fifo 23).bank 1).full = true) ∧
    (∀ k ∈ [0, 4], let ea := 0xE0000 + 0x20 * 23 + 0x10 * 1 + k
      At ((based ea).jn 0) post 4 ea ((based ea |>.jn 0).rdA 0) ∧ (based ea).mayCapture 0 23 = true) ∧
    Off (rotating.jn 0) staged1 := by
  refine ⟨fun v d => ⟨yOpen d 0 (by rfl) (by rfl) (by rfl) (by rfl) (by rfl) (legal_based v) (by rfl) (by exact (by decide : 0 + 0 + max 3 0 < 64)),
      yOpen d 0 (by rfl) (by rfl) (by rfl) (by rfl) (by rfl) (legal_based v) (by rfl) (by exact (by decide : 0 + 0 + max 2 0 < 64))⟩,
    fun d => yOpen d 36 (by decide +kernel) (by decide +kernel) (by decide +kernel) (by decide +kernel) (by decide +kernel) (by decide +kernel) (by decide +kernel) (by decide +kernel), ?_, ?_, ?_, ?_⟩
  · intro n hn ea he
    refine ⟨?_, ?_, quietStores rfl, ?_⟩
    · revert ea n; unfold At; decide +kernel
    · revert ea; decide
    · revert ea n; decide +kernel
  · unfold At; decide +kernel
  · unfold At; decide +kernel
  · unfold Off; decide +kernel

/-- A publish of the context set of lane 0 by Joiner 0, in this phase. -/
def pub0 (ph : PubPhase) : Publish := ⟨0, 1, 0, [], 5, 0, 0x8000, 0, false, ph, 0⟩

/-- A bundle issues, of two legal words, with nothing of an X syllable. -/
abbrev Clear (j : Joiner) : Prop := j.issuing = true ∧ j.bundleOk = true ∧ j.xDest = none ∧ j.xFlights = []

theorem witness_StoresCompleteAndLand :
    (∀ v dests, YOpen (based v) 0 dests 0) ∧
    (∀ n ∈ [64, 4], ∀ ea ∈ [0, 0x7FFC0], At ((based ea).jn 0) plain n ea (BitVec.ofNat 32 ea) ∧ ea < 0x80000 ∧
      (based ea).mayWrite 0 ea n = true ∧ (based ea).mayRead 0 ea n = true) ∧
    (YOpen (userRuns id) 0 [] 0 ∧ At ((userRuns id).jn 0) plain 64 0 0 ∧ (userRuns id).mayWrite 0 0 64 = false) ∧
    Off (rotating.jn 0) staged1 ∧
    (let s := arriving (.storeV 0x40000 0 (List.replicate 32 1)) (jst busy)
     let p := { s with pubs := [pub0 .writing] }
     (List.replicate 32 (1 : Half)).length = 32 ∧ Clear (s.jn 0) ∧ (s.jn 0).branch = none ∧ (s.jn 0).badBranch = none ∧
     (s.jn 0).flights = [⟨4, (s.jn 0).cycle + 1, (s.jn 0).cycle + 1, .storeV 0x40000 0 (List.replicate 32 1)⟩] ∧
     s.locked 0x40000 64 = false ∧ p.locked 0x40000 64 = true ∧ p.isUser 0 = false) ∧
    (let s := arriving (.storeS 4 0 7) (jst busy)
     (s.jn 0).flights = [⟨4, (s.jn 0).cycle + 1, (s.jn 0).cycle + 1, .storeS 4 0 7⟩] ∧ s.locked 4 4 = false) ∧
    (∀ seen ∈ [5, 6],
      let s := jst fun j => { busy j with cycle := 5, flights := [⟨4, 7, 7, .storeS 0 seen 7⟩] }
      YOpen s 0 [destS 0] 0 3 ∧ (s.jn 0).flights = [⟨4, 7, 7, .storeS 0 seen 7⟩] ∧ (s.jn 0).cycle + 1 < 7) := by
  refine ⟨fun v d => yOpen d 0 (by rfl) (by rfl) (by rfl) (by rfl) (by rfl) (legal_based v) (by rfl) (by exact (by decide : 0 + 0 + max 2 0 < 64)), ?_, ⟨?_, ?_, ?_⟩, ?_, ?_, ?_, ?_⟩
  · unfold At; decide +kernel
  · exact yOpen [] 0 (by decide +kernel) (by decide +kernel) (by decide +kernel) (by decide +kernel) (by decide +kernel) (by decide +kernel) (by decide +kernel) (by decide +kernel)
  · unfold At; decide +kernel
  · decide +kernel
  · unfold Off; decide +kernel
  · decide +kernel
  · decide +kernel
  · intro seen _
    refine ⟨⟨by rfl, legal_based 0, by rfl, by rfl, ?_, ?_, ?_, ?_⟩, by rfl, ?_⟩
    · intro x h
      cases h
    · intro f h
      cases List.mem_singleton.1 h
      exact (by decide : 5 + 1 + 0 < 7)
    · intro f h
      cases h
    · exact (by decide : 5 + 0 + max 3 0 < 64)
    · exact (by decide : 5 + 1 < 7)

theorem witness_BranchesHaveThreeDelaySlots :
    (YOpen (jst busy) 0 [] 0 ∧ ((jst busy).jn 0).rep = none ∧ ((jst busy).jn 0).delay = 0 ∧ (jst busy).isUser 0 = false ∧
      ((jst busy).jn 0).rdS 0 = 0 ∧ ∀ x, ((jst busy).jn 0).xDest = some x → x ≠ destX 2) ∧
    (let s := jst fun j => { busy j with s := List.replicate 16 0x80000000 }
     YOpen s 0 [] 0 ∧ (s.jn 0).rdS 0 ≠ 0 ∧ ((s.jn 0).rdS 0).toInt < 0) ∧
    (YOpen (jst busy) 0 [destX 2] 0) ∧
    (∀ x ∈ [(2, 0), (1, 0x3FFF8)],
      let j := (jst fun j => { busy j with branch := some x }).jn 0
      Clear j ∧ j.flights = [] ∧ j.rep = none ∧ j.branch = some x ∧ j.badBranch = none) ∧
    (let j := (arriving (.badBranch 0x40000) (jst fun j => { busy j with branch := some (2, 0x40000) })).jn 0
     Clear j ∧ j.rep = none ∧ j.branch = some (2, 0x40000) ∧
     j.flights = [⟨4, j.cycle + 1, j.cycle + 1, .badBranch 0x40000⟩]) ∧
    (∀ s ∈ [jst fun j => { busy j with branch := some (1, 0x40000), badBranch := some 0x40000 },
        userRuns fun j => { j with branch := some (1, 0x40000), badBranch := some 0x40000 }],
      Clear (s.jn 0) ∧ (s.jn 0).rep = none ∧ (s.jn 0).flights = [] ∧ (s.jn 0).branch = some (1, 0x40000) ∧
      (s.jn 0).badBranch = some 0x40000) ∧
    ((userRuns id).isUser 0 = true ∧ (0x30000 ≤ 0x3FFF8 ∧ 0x3FFF8 < 0x40000)) ∧
    ((rotating.jn 0).issuing = true ∧ rotating.isUser 0 = false ∧ (rotating.jn 0).rep.isSome = true) := by
  refine ⟨⟨yOpen [] 0 (by decide +kernel) (by decide +kernel) (by decide +kernel) (by decide +kernel) (by decide +kernel) (by decide +kernel) (by decide +kernel) (by decide +kernel), by decide +kernel, by decide +kernel, by decide +kernel,
    by decide +kernel, fun x h => by cases h⟩, ⟨yOpen [] 0 (by decide +kernel) (by decide +kernel) (by decide +kernel) (by decide +kernel) (by decide +kernel) (by decide +kernel) (by decide +kernel) (by decide +kernel), ?_, ?_⟩,
    yOpen [destX 2] 0 (by decide +kernel) (by decide +kernel) (by decide +kernel) (by decide +kernel) (by decide +kernel) (by decide +kernel) (by decide +kernel) (by decide +kernel), ?_, ?_, ?_, ?_, ?_⟩
  all_goals decide +kernel

theorem witness_LoopsYieldAndInterrupts :
    (YOpen (jst busy) 0 [] 0 ∧ ((jst busy).jn 0).rep = none ∧ ((jst busy).jn 0).delay = 0) ∧
    (∀ n ∈ [0, 1, 1024, 1025], (((jst fun j => { busy j with s := List.replicate 16 (BitVec.ofNat 32 n) }).jn 0).rdS 0).toNat = n) ∧
    ((jst busy).jn 0).issuing = true ∧ (jst busy).isUser 0 = false ∧
    (∀ x ∈ [((0, 1) : Nat × Nat), (1, 1), (1, 0)],
      let b : RepBlock := ⟨8, 2, x.2, x.1, 2, true, 2, false⟩
      let j := (jst fun j => { busy j with rep := some b }).jn 0
      Clear j ∧ j.flights = [] ∧ j.branch = none ∧ j.badBranch = none ∧ j.rep = some b ∧
      (x.1 = 0 → b.pos + 1 < b.len) ∧ (x.1 = 1 → b.len ≤ b.pos + 1)) ∧
    (∀ x ∈ [(61, true), (62, false)],
      let j := (jst fun j => { busy j with cycle := x.1 }).jn 0
      Clear j ∧ j.rep = none ∧ j.delay = 0 ∧
      decide (j.flights.foldl (fun m f => max m f.ret) (j.cycle + max 2 j.xLat) < j.slotLen) = x.2) ∧
    (let s := (jst busy).wr (JNR.SCHED 0 0) (2 ^ 29)
     let j := s.jn 0
     j.issuing = true ∧ j.xDone = false ∧ j.rep = none ∧ j.delay = 0 ∧ (j.irqPending ||| 1) ≠ 0 ∧ j.irqEnabled = true ∧
     s.runKind 0 = 1) ∧
    (((jst busy).jn 0).irqPending ||| 0) = 0 := by
  refine ⟨⟨yOpen [] 0 (by decide +kernel) (by decide +kernel) (by decide +kernel) (by decide +kernel) (by decide +kernel) (by decide +kernel) (by decide +kernel) (by decide +kernel), by decide +kernel, by decide +kernel⟩, ?_⟩
  and_intros <;> decide +kernel

/-- The lane of USER slot 0 and its grants. -/
def userLane (tgt grant : Nat) : State :=
  puts (jst busy) [(JNR.SCHED 0 0, 6 * 2 ^ 29 + tgt * 2 ^ 24), (JNR.USER_GRANT 0 (clusterOf tgt), grant)]

theorem witness_PublishCaptureReleaseRetire :
    (∀ dests, YOpen (jst busy) 0 dests) ∧ (jst busy).isUser 0 = false ∧
    ((userLane 7 0x40).isUser 0 = true ∧ (7 : BitVec 5).toNat = (userLane 7 0x40).runTarget 0 ∧
      (userLane 7 0x40).granted 0 7 7 = true) ∧
    (1 ≤ (7 : BitVec 4).toNat ∧ (7 : BitVec 5).toNat < 8 ∧ 16 ≤ (31 : BitVec 5).toNat) ∧
    (∀ e ∈ [Eff.askCap 3 31 2 0 512 0x80000000, .capreq 31 2 0 512 0x80000000, .crel 31 1, .askPub 3 0 1 0, .pub 0 1 0],
      let s := arriving e (jst busy)
      Clear (s.jn 0) ∧ (s.jn 0).branch = none ∧ (s.jn 0).badBranch = none ∧ (s.jn 0).flights = [⟨4, (s.jn 0).cycle + 1, (s.jn 0).cycle + 1, e⟩] ∧
      s.reaches 0 (dieOfTarget 0) = true ∧ (s.fifo (clusterOf 0)).filling = none) ∧
    ((jst busy).modSys fun y => { y with bridgeLost := true }).reaches 0 (dieOfTarget 31) = false := by
  refine ⟨fun d => yOpen d 0 (by decide +kernel) (by decide +kernel) (by decide +kernel) (by decide +kernel) (by decide +kernel) (by decide +kernel) (by decide +kernel) (by decide +kernel), ?_⟩
  and_intros <;> decide +kernel

theorem witness_IllegalInstructionsAndSandbox :
    ((jst busy).jn 0).issuing = true ∧ ((jst busy).jn 0).xDone = false ∧ (jst busy).isUser 0 = false ∧
    (let j := (jst fun j => { busy j with pm := [(0, 255), (1, 255), (2, 255), (3, 255)] }).jn 0
     j.issuing = true ∧ j.xDone = false ∧ j.bundleOk = false) ∧
    (userRuns id).isUser 0 = true ∧ ((userRuns id).jn 0).issuing = true ∧
    IllegalX 0 (.vshl 0 0 0 0 16) ∧ IllegalX 0 (.vcmpeq 0 0 0 1 2) ∧
    IllegalY (jst busy) 0 (.mmov 0 8 0 (.imm 0)) ∧ IllegalY (jst busy) 0 (.mfs 0 0 7) ∧ IllegalY (jst busy) 0 (.mts 0 9 0) ∧
    IllegalY (jst busy) 0 (.rdpc 0 1 8) ∧ IllegalY (jst busy) 0 (.pub 0 0 8 1 0) ∧ IllegalY (jst busy) 0 (.crel 0 15 true) ∧
    IllegalY (jst busy) 0 (.sst 0 0 ⟨0, 0, 3, 0, 0⟩) ∧ IllegalY (based 0xE0000) 0 (.vst 0 0 post) ∧
    IllegalY (based 0xE0300) 0 (.sst 0 0 post) ∧ IllegalY (jst fun j => { busy j with xDest := some (destV 5) }) 0 (.vsplat 0 5 0) ∧
    IllegalY (jst fun j => { busy j with xDest := some (destP 5) }) 0 (.pset 0 0 5) ∧
    (8 : BitVec 5).toNat ≠ (userRuns id).runTarget 0 ∧
    (7 : BitVec 5).toNat = (userLane 7 0).runTarget 0 ∧ (userLane 7 0).granted 0 7 6 = false := by
  refine ⟨by decide +kernel, by decide +kernel, by decide +kernel, by decide +kernel, by decide +kernel, by decide +kernel, .inl ⟨0, 0, 0, 16, ?_⟩,
    .inr ⟨0, 1, 2, ?_⟩, .inl ⟨8, 0, 0, .imm 0, ?_⟩, .inr (.inl ⟨0, 7, ?_⟩), .inr (.inr (.inl ⟨9, 0, ?_⟩)),
    .inr (.inr (.inr (.inl ⟨1, 8, ?_⟩))), .inr (.inr (.inr (.inr (.inl ⟨0, 8, 1, 0, ?_⟩)))),
    .inr (.inr (.inr (.inr (.inr (.inl ⟨0, 15, 0, 0, 0, 0, true, ?_⟩))))),
    .inr (.inr (.inr (.inr (.inr (.inr (.inl ⟨0, 0, ⟨0, 0⟩, ⟨0, 0, 3, 0, 0⟩, ?_⟩)))))),
    .inr (.inr (.inr (.inr (.inr (.inr (.inr (.inl ⟨0, post, ⟨0, 0⟩, ?_⟩))))))),
    .inr (.inr (.inr (.inr (.inr (.inr (.inr (.inr (.inl ⟨0, post, ⟨0, 0⟩, ?_⟩)))))))),
    .inr (.inr (.inr (.inr (.inr (.inr (.inr (.inr (.inr (.inl ⟨5, 0, ?_⟩))))))))),
    .inr (.inr (.inr (.inr (.inr (.inr (.inr (.inr (.inr (.inr ⟨5, 0, ?_⟩))))))))), by decide +kernel, by decide +kernel,
    by decide +kernel⟩
  all_goals simp <;> decide +kernel

theorem witness_ResultsArriveAtTheirLatency :
    XOpen (jst busy) 0 ∧ XOpen (jst fun j => { busy j with cycle := 62 }) 0 ∧
    (∀ n ∈ [0, 62], let j := (jst fun j => { busy j with cycle := n }).jn 0
      j.branch = none ∧ j.badBranch = none ∧ j.flights = [] ∧ j.rep = none ∧ j.rotofs < 32 ∧ j.rotSmall = false ∧
      decide (j.cycle + 2 < j.slotLen) = decide (n = 0) ∧ { j with pc := j.pc + 8 }.bundleOk = true) ∧
    (let j := (arriving (.scalar 3 9) (jst busy)).jn 0
     Clear j ∧ j.branch = none ∧ j.badBranch = none ∧ 4 < j.cycle ∧ j.cycle + max 2 j.xLat < j.slotLen ∧
     j.flights = [⟨4, j.cycle + 1, j.cycle + 1, .scalar 3 9⟩]) := by
  refine ⟨⟨by decide +kernel, by decide +kernel, by decide +kernel⟩, ⟨by decide +kernel, by decide +kernel, by decide +kernel⟩, ?_⟩
  and_intros <;> decide +kernel

/-- An outcome that goes on has a next state. -/
theorem ran {r : Result} (h : Safety.goesOn r = true) : ∃ t, r = .next t := by
  cases r with
  | next t => exact ⟨t, rfl⟩
  | fault _ => cases h
  | refused _ => cases h

/-- Joiner 0 idles and slot k has this schedule word. -/
def slotted (k w : Nat) : State := st [(JNR.STATE 0, 2), (JNR.SCHED 0 k, w)]

/-- Slot k of Joiner 0 runs under this schedule word after this many overruns. -/
def overrun (k w n : Nat) : State :=
  (slotted k w).modJn 0 fun j => { j with slot := some k, slots := modNth .reset j.slots k fun b => { b with overruns := n } }

theorem witness_SlotsStartAndEnd :
    (∀ w ∈ [0, 7 * 2 ^ 29, 2 ^ 29 + 2 ^ 14 + 2 ^ 11], let s := slotted 31 w
      (s.jn 0).slot = none ∧ s.rd (JNR.STATE 0) = 2 ∧ (s.jn 0).fault = false ∧
      let u := s.rd (JNR.SCHED 0 31)
      u / 2 ^ 29 % 8 = 0 ∨ u / 2 ^ 29 % 8 = 7 ∨ s.now 0 % 2 ^ (u / 2 ^ 14 % 4) ≠ u / 2 ^ 11 % 8) ∧
    (let s := slotted 31 (2 ^ 29)
     let u := s.rd (JNR.SCHED 0 31)
     u / 2 ^ 29 % 8 = 1 ∧ s.now 0 % 2 ^ (u / 2 ^ 14 % 4) = u / 2 ^ 11 % 8 ∧ ((s.jn 0).slots.getD 31 .reset).reverted = false ∧
     s.reaches 0 0 = true) ∧
    (∀ x ∈ [(1, true), (0, false)],
      let s := puts ((slotted 31 (2 * 2 ^ 29 + 7 * 2 ^ 24)).modSys fun y => { y with bridgeLost := true })
        [(JNR.RG_DUTY 0 (regionOfLine 7), x.1), (LRX.STATE 7, 3)]
      let s := { s with tickno := 1 }
      (s.jn 0).slot = none ∧ s.rd (JNR.STATE 0) = 2 ∧ (s.jn 0).fault = false ∧
      (decide (s.now 0 % 2 ^ s.rd (JNR.RG_DUTY 0 (regionOfLine 7)) = 0) = !x.2 ∨ x.2 = false) ∧
      s.sys.lanesIdle = false ∧ (s.jn 0).rebuild = [] ∧ s.tgtGone 0 (s.rd (JNR.SCHED 0 31)) = true) ∧
    (State.reset.rd (JNR.STATE 0) ≠ 2 ∧ (State.reset.jn 0).slot = none) ∧
    (∀ x ∈ [(6, 0), (6, 1000000), (1, 15)], let s := overrun 31 (x.1 * 2 ^ 29) x.2
      (s.jn 0).slot = some 31 ∧ (s.jn 0).yieldAt = none ∧ (s.jn 0).badBranch = none ∧ (s.jn 0).flights = [] ∧ s.rd (JNR.SCHED 0 31) / 2 ^ 29 % 8 = x.1 ∧
      ((s.jn 0).slots.getD 31 .reset).overruns = x.2) ∧
    (1 < (overrun 31 (6 * 2 ^ 29) 0).rd (JNR.LATE_LIMIT 0) ∧ (overrun 31 0 0).rd (JNR.LATE_LIMIT 0) ≤ 1000001) := by
  and_intros <;> decide +kernel

theorem witness_CapturePacketsFillAndEnd :
    (let r : CapReq := ⟨0, 1, 0, none, 0⟩
     let s := (st [(LRX.STATE 7, 3)]).modFifo 7 fun f => { f with queued := some r }
     let u := State.reset.modFifo 7 fun f => { f with queued := some r }
     (s.fifo 7).queued = some r ∧ (s.fifo 7).filling = none ∧ s.capturing 7 = true ∧ (s.fifo 7).a.full = false ∧
     (u.fifo 7).queued = some r ∧ u.capturing 7 = false) ∧
    (∀ n ∈ [0, 1],
      let r : CapReq := ⟨0, 1, 0, none, 0⟩
      let s := State.reset.modFifo 7 fun f => { f with filling := some (1, r), b := { f.b with words := List.replicate n (0, 0) } }
      (s.fifo 7).filling = some (1, r) ∧ 0 < r.count ∧ ((s.fifo 7).bank 1).words.length = n) ∧
    (let r : CapReq := ⟨0, 1, 0, none, 0⟩
     let s := (st [(LRX.STATE 7, 3)]).modFifo 7 fun f => { f with queued := some r, a := { f.a with full := true }, b := { f.b with full := true } }
     (s.fifo 7).queued = some r ∧ (s.fifo 7).filling = none ∧ (s.fifo 7).a.full = true ∧ (s.fifo 7).b.full = true) := by decide +kernel

theorem witness_JoinerFaultsAndRestarts :
    (st [(JNR.STATE 1, 2)]).rd (JNR.STATE 1) = 2 ∧
    (((State.reset.modJn 1 fun j => { j with restarts := [0, 0, 0] }).jn 1).restarts.filter fun t =>
      decide (ticksSince 0 t < State.reset.ticksPerSecond)).length = 3 ∧
    (((State.reset.modJn 1 fun j => { j with fault := true }).jn 1).fault = true ∧ (State.reset.jn 1).restarts = []) ∧
    ((State.reset.jn 1).fault = false ∧ JoinerCause.exception ≠ .programMemory) ∧
    (st [(JNR.STATE 1, 3)]).rd (JNR.STATE 1) = 3 ∧ State.reset.rd (JNR.STATE 1) ≠ 3 := by
  and_intros <;> decide +kernel

/-- One publish, at TICKNO t, with this last swap of the context set of lane 0. -/
def published (p : Publish) (t : Nat) (last : List (Nat × Nat × Nat)) : State :=
  { State.reset with pubs := [p], tickno := t, pubSwaps := last }

/-- An armed publish of a kind on a target with this many words. -/
def armedPub (k tgt n : Nat) : Publish := ⟨0, k, tgt, List.replicate n 0, 5, 0, 0x8000, 0, false, .armed, 9⟩

theorem witness_PublishesArmAndSwap :
    (let s := published (pub0 .complete) 9 []
     s.findPub 1 0 = some (pub0 .complete) ∧ s.pubBarred 1 0 none = false ∧
     (pub0 .complete).gen = s.cfgGen (s.domOfDie (dieOfTarget 0)) ∧ s.swapFree 1 0 (s.later 0 1) 4 = true) ∧
    (let s := (published (pub0 .complete) 9 []).wr DEV.CFG_GEN0 1
     s.pubBarred 1 0 none = false ∧ (pub0 .complete).gen ≠ s.cfgGen (s.domOfDie (dieOfTarget 0)) ∧ (pub0 .complete).die < 2) ∧
    (let s := (published (pub0 .complete) 9 []).wr (LRX.STATE 0) 5
     s.findPub 1 0 = some (pub0 .complete) ∧ s.pubBarred 1 0 none = true) ∧
    (let s := published (pub0 .complete) 9 [(1, 0, 7)]
     s.findPub 1 0 = some (pub0 .complete) ∧ s.swapFree 1 0 (s.later 0 1) 4 = false) ∧
    (∀ x ∈ [(1, 7, 0), (2, 7, 0), (3, 7, 33), (4, 7, 2), (5, 7, 132), (6, 7, 8), (7, 7, 228), (8, 31, 15)],
      let p := armedPub x.1 x.2.1 x.2.2
      let s := published p 9 []
      s.findPub x.1 x.2.1 = some p ∧ p.phase = .armed ∧ p.die < 2 ∧ s.dueAt (dieOfTarget p.tgt) p.due = true ∧
      s.dueBefore .publish = false ∧ p.kind = x.1 ∧ p.tgt = x.2.1 ∧ s.pubBarred x.1 x.2.1 (some p.due) = false ∧ p.words.length = x.2.2) ∧
    (let s := published (armedPub 1 7 0) 9 []
     let held := s.wr (LRX.STATE 7) 5
     let first : State := { s with live := [⟨LTX.SQUELCH 7, 1, 9⟩] }
     held.findPub 1 7 = some (armedPub 1 7 0) ∧ held.pubBarred 1 7 (some 9) = true ∧ held.dueBefore .publish = false ∧
     first.dueBefore .publish = true) ∧
    pubTarget (23 : Chan).val = 31 ∧ pubTarget (7 : Chan).val = 7 := by decide +kernel

/-! ### Witnesses: the tick and the data path -/

theorem witness_TickBoundaryEndsTheTick :
    WellFormed.tickFacts { facts with lineLow := [] } = false ∧ WellFormed.tickFacts facts = true ∧
    (st [(PWR.CLK_STATE 36, 1)]).coreOn = true ∧ State.reset.coreOn = false ∧
    facts.own1 = false ∧ { facts with own1 := true }.own1 = true ∧ WellFormed.tickFacts { facts with own1 := true } = true ∧
    (State.reset.dieTicks 0 1 = true ∧ State.reset.dieTicks 1 1 = true ∧ State.reset.tick1 = none ∧ State.reset.split = false ∧
      State.reset.tickno < 2 ^ 48) ∧ State.reset.sys.ten.load = none ∧
    (let s := (st [(PWR.CLK_STATE 36, 1)]).modSys fun y => { y with ten := { y.ten with load := some (90, true) } }
     s.coreOn = true ∧ s.sys.ten.load = some (90, true)) ∧
    (let s : State := { st [(PWR.CLK_STATE 36, 1)] with tick1 := some 8 }
     s.coreOn = true ∧ s.tick1 = some 8) ∧ ((State.reset.jn 1).slots.getD 31 .reset).revertDue = false ∧
    (let s := State.reset.modJn 1 fun j => { j with slots := modNth .reset j.slots 31 fun b => { b with revertDue := true } }
     ((s.jn 1).slots.getD 31 .reset).revertDue = true ∧ s.schedAt 1 1 = false) ∧
    2 ≤ (st [(JNR.STATE 1, 2)]).rd (JNR.STATE 1) ∧ ((st [(JNR.STATE 1, 2)]).jn 1).slot = none := by
  and_intros <;> decide +kernel

/-- A word of 128 codes. -/
def codes128 (x : BitVec 7) : List (BitVec 7) := List.replicate 128 x

theorem witness_LineReceiveWord :
    (codes128 0).length = 128 ∧ ([0, 0] : List (BitVec 7)).length = 2 ∧ State.reset.rd (LRX.STATE 7) = 0 ∧
    (∀ v ∈ [1, 2, 3, 4, 5], (st [(LRX.STATE 7, v)]).rd (LRX.STATE 7) = v) ∧
    ((State.reset.rxL 7).step ≠ 3 ∧ ((State.reset.modRx 7 fun r => { r with step := 3 }).rxL 7).step = 3) := by decide +kernel

theorem witness_LineTransmitWord :
    (List.replicate 60 (0 : BitVec 10)).length = 60 ∧ (∀ a ∈ [HRX.STATE 14, HRX.STATE 15],
      let s := st [(LTX.STATE 7, 2), (HRX.STATE 14, 4), (HRX.STATE 15, 4)]
      2 ≤ s.rd a ∧ s.rd a ≤ 5 ∧ s.fecMode (dieOfHost 14) ≠ 1) ∧ State.reset.rd (LTX.STATE 7) ≠ 2 ∧ State.reset.rd (LTX.STATE 7) ≠ 3 ∧
    (let s := st [(LTX.STATE 7, 2)]
     s.rd (LTX.STATE 7) = 2 ∧ (s.txL 7).fill = false ∧ (s.txL 7).half = [] ∧ (s.txL 7).coded = []) ∧
    (let s := (st [(LTX.STATE 7, 3), (LTX.SHP_EN 7, 0)]).modTx 7 fun x => { x with half := List.replicate 240 true, v2 := [0], s2 := [0] }
     s.rd (LTX.STATE 7) = 3 ∧ (s.txL 7).fill = false ∧ (s.txL 7).half ≠ [] ∧ (s.txL 7).v2 ≠ [] ∧ (s.txL 7).s2 ≠ [] ∧
     s.rd (LTX.SHP_EN 7) = 0) := by decide +kernel

theorem witness_DataPathKeepsItsSettings :
    (∃ t, exec (.lineRxWord 7 (codes128 63) [0, 0] [] []) (st [(LRX.STATE 7, 3)]) = .next t) ∧
    ∃ t, exec (.lineTxWord 7 (List.replicate 60 3) (List.replicate 60 1) []) (st [(LTX.STATE 7, 2)]) = .next t :=
  ⟨ran (by decide +kernel), ran (by decide +kernel)⟩

theorem witness_InnerCodeCorrectsOneError : 0 ∈ [0] ∧ (List.replicate 120 true).length = 120 := by decide

theorem witness_PairsSpreadOverCodewords :
    (List.replicate 480 true).length = 480 ∧ ∀ bs : List Bool,
      let ds := (encodeBlock bs).map fun w => (⟨w.take 120, 0, false, true⟩ : Decoded)
      ds.length = 4 ∧ ∀ c < 4, (ds.getD c ⟨[], 0, false, false⟩).info = ((encodeBlock bs).getD c []).take 120 := by
  refine ⟨List.length_replicate, fun bs => ⟨by simp [encodeBlock], fun c _ => ?_⟩⟩
  simp only [List.getD_eq_getElem?_getD, List.getElem?_map]
  cases (encodeBlock bs)[c]? <;> rfl

/-! ### Witnesses: tables, commits, lanes, units, domains -/

/-- Both table memories of lane 7 are powered and are then changed so. -/
def tabled (f : TblMem → TblMem) : State :=
  (State.reset.modTbl 7 .ctx fun m => f { m with powered := true, fillDue := none }).modTbl 7 .shp fun m => f { m with powered := true, fillDue := none }

/-- A broadcast write of one entry. -/
def writing (o : Origin) (verifying : Bool) (due : Nat) : TblWrite := ⟨o, verifying, due, [(3, 9)], ⟨5, 0, 0x8000, none⟩, none⟩

theorem witness_EntriesAreStoredAsTwoCodewords :
    (0x01DB < 65536 ∧ 25 < 26 ∧ (0 < 12 ∧ 12 < 13) ∧ (13 < 25 ∧ 13 ≤ 13)) ∧ (0x01DB % 256 = 0x00DB % 256 ∧ 0x01DB / 256 = 0x01FF / 256) := by
  decide

theorem witness_ShadowsAreWrittenAndVerified :
    (∀ o ∈ [Origin.load, .publish, .refresh, .repair, .zero], ∀ v ∈ [false, true],
      let s := { tabled fun m => { m with write := some (writing o v 0) } with
        pubs := [{ pub0 .writing with tgt := 7 }], loads := [⟨1, 7, 1, [0], .writing, 0, none⟩] }
      (s.tbl 7 .ctx).write = some (writing o v 0) ∧ reached (s.nowL 7) 0 = true ∧ (s.tbl 7 .ctx).fillDue = none ∧
      (s.tbl 7 .ctx).upsets = [] ∧ (s.findPub 1 7).isSome = true ∧ (s.findLoad 1 7).isSome = true) ∧
    reached (State.reset.nowL 7) 1 = false ∧ reached ((published (armedPub 8 31 15) 9 []).now (dieOfTarget 31)) 9 = true ∧
    (∀ ph ∈ [PubPhase.writing, .verifying], (published { armedPub 8 31 15 with phase := ph } 9 []).findPub 8 31 =
      some { armedPub 8 31 15 with phase := ph }) ∧
    (let l : Load := ⟨2, 7, 1, [0], .waits, 0, none⟩
     let s := { tabled id with loads := [l] }
     let u := { tabled fun m => { m with fillDue := some 5 } with loads := [l] }
     (s.loads.find? fun l => decide (l.kind = Tbl.shp.kind ∧ l.inst = 7 ∧ l.phase = .waits)) = some l ∧ s.loadMayStart 7 .shp = true ∧
     u.loadMayStart 7 .shp = false) := by
  and_intros <;> decide +kernel

theorem witness_ScrubbingAndRefreshes :
    (∀ mask ∈ [1, 3],
      let u0 : Upset := ⟨0, 65, 0, mask⟩
      let s := tabled fun m => { m with upsets := [{ u0 with repl := 5 }] }
      let m := s.tbl 7 .ctx
      m.powered = true ∧ m.fillDue = none ∧ s.rd PWR.STATE < 2 ∧ s.actBank 7 .ctx = 0 ∧ m.scrub = 0 ∧ 0 + 1 < Tbl.ctx.size ∧
      s.replUsable 7 .ctx 5 = true ∧ m.poisoned 0 5 0 = false ∧
      s.readRepl 7 .ctx 0 5 0 = (if mask = 1 then .corrected 0 else .bad) ∧
      (s.track.getD 7 ⟨[], [], []⟩).seen.contains (trackKey .ctx 0 5 0) = false) ∧
    ((State.reset.tbl 7 .ctx).powered = false ∧ 2 ≤ (st [(PWR.STATE, 2)]).rd PWR.STATE) ∧
    (∀ t ∈ [63, 64], let s := { tabled fun m => { m with needActive := some 0, needShadow := some 0 } with tickno := t }
      (s.tbl 7 .shp).needActive = some 0 ∧ (s.tbl 7 .shp).needShadow = some 0 ∧ s.sinceL 7 0 = t ∧
      s.repairWaits 7 .shp = false ∧ s.shadow 7 .shp = 0) ∧
    ((tabled id).tbl 7 .ctx).needActive = none ∧ ((tabled id).tbl 7 .ctx).needShadow = none ∧
    (∀ o ∈ [Origin.refresh, .zero], let s := tabled fun m => { m with armed := some o }
      (s.tbl 7 .ctx).armed = some o ∧ s.dueAt (dieOfLine 7) (s.tbl 7 .ctx).armedDue = true ∧ s.swapFree 1 7 (s.nowL 7) 4 = true ∧
      s.otherCommitNow 7 .ctx = false ∧ (s.rxL 7).relinkT = none ∧ s.dueBefore .refresh = false) ∧
    (let s := tabled fun m => { m with newRemaps := [(15, 9)] }
     (s.tbl 7 .ctx).newRemaps = [(15, 9)] ∧ s.dueAt (dieOfLine 7) 9 = false ∧ s.dueBefore .remap = false ∧
     { s with tickno := 9 }.dueAt (dieOfLine 7) 9 = true ∧
     readWord ((s.tbl 7 .ctx).row (s.rd (CTX.REMAP 7 15) / 2 ^ 29 % 2) (s.rd (CTX.REMAP 7 15) / 2 ^ 22 % 128)
       (s.rd (CTX.REMAP 7 15) / 2 ^ 20 % 4)) ≠ .bad ∧
     { s with live := [⟨LTX.SQUELCH 7, 1, 0⟩] }.dueBefore .remap = true) ∧
    (∀ t ∈ [4095, 4096],
      let s := { st [(CTX.TRACK 7 15, 6 * 2 ^ 29)] with tickno := t, track := List.replicate 8 ⟨[], List.replicate 16 (some 0), []⟩ }
      (s.track.getD 7 ⟨[], [], []⟩).watch.getD 15 none = some 0 ∧ s.rd (CTX.TRACK 7 15) / 2 ^ 29 % 8 = 6 ∧ s.sinceL 7 0 = t) := by
  and_intros <;> decide +kernel

theorem witness_MasterCopiesFollow :
    (∀ x ∈ [(1, 7, 16), (8, 31, 15)],
      let p := { armedPub x.1 x.2.1 x.2.2 with phase := .swapped }
      let s := published p 9 []
      s.findSwapped x.1 x.2.1 = some p ∧ s.rd (JNR.STATE p.die) < 3 ∧ (x.2.1 < 8 ∨ x.1 = 8) ∧ 2 * p.words.length ≤ (masterArea x.1 x.2.1).2) ∧
    (published (pub0 .armed) 9 []).findSwapped 1 0 = none ∧
    State.reset.goodEntry 7 .ctx 4095 = some 0 ∧
    (State.reset.tbl 7 .ctx).window = none ∧ ((tabled fun m => { m with window := some 5 }).tbl 7 .ctx).window.isSome = true ∧
    (State.reset.modTbl 7 .ctx fun m => { m with upsets := [⟨0, 0, 4095, 3⟩, ⟨0, 1, 4095, 3⟩] }).goodEntry 7 .ctx 4095 = none := by
  and_intros <;> decide +kernel

/-- A pending commit of domain 0 at TICKNO 9. -/
def committing (frozen : List (Nat × Nat)) (tables : List TableSet) (armed : Bool) (now : Nat) : State :=
  { State.reset.modDom 0 fun d => { d with commit := some ⟨9, armed, frozen, tables, none, ⟨0, .spi, 7, 0x18, false, []⟩⟩ } with
    tickno := now }

theorem witness_LiveWritesAndCommitsTakeEffect :
    (∀ x ∈ [(BDAC.CODE 23, 1), (OBS.IRQ_CLR, 10), (LTX.SQUELCH 7, 1)],
      let s := { st [(LTX.STATE 7, 2), (OBS.IRQ_STAT, 15)] with live := [⟨x.1, x.2, 0⟩] }
      s.live = [⟨x.1, x.2, 0⟩] ∧ s.dueBefore .live = false ∧ s.dueAt (dieOfAddr x.1) 0 = true ∧ s.rd (LTX.SQUELCH 7) = 0 ∧ s.rd (LTX.STATE 7) = 2) ∧
    (BDAC.CODE 23 ∉ actionFields ∧ isLtxSquelch (BDAC.CODE 23) = false ∧ isHtxSquelch (BDAC.CODE 23) = false) ∧
    (State.reset.dom 0).commit = none ∧ { committing [] [] true 9 with live := [⟨LTX.SQUELCH 7, 1, 9⟩] }.dueBefore .live = true ∧
    (∀ x ∈ [(false, 7), (false, 8), (true, 8), (true, 9)],
      ∃ c, ((committing [] [] x.1 x.2).dom 0).commit = some c ∧ c.armed = x.1 ∧ reached (addTicks (committing [] [] x.1 x.2).tickno 1) c.target =
        decide (x.2 ≠ 7) ∧ (committing [] [] x.1 x.2).dueAt 0 c.target = decide (x.2 = 9)) ∧
    (State.reset.split = false ∧ State.reset.sys.bridgeLost = false ∧ (st [(DEV.SPLIT, 1)]).split = true) ∧
    (∃ c, ((committing [(LTX.SWING 7, 22)] [] true 9).dom 0).commit = some c ∧ c.frozen = [(LTX.SWING 7, 22)] ∧ c.tables = [] ∧
      c.bundle = none ∧ fieldCls (LTX.SWING 7) = some .s ∧ blkOf (LTX.SWING 7) ∉ [0x10, 0x40, 0x41, 0x60, 0x70]) ∧
    ∀ k ∈ [1, 9], ∃ c, ((committing [] [⟨k, 7, [], 0⟩] true 9).dom 0).commit = some c ∧ c.frozen = [] ∧ c.bundle = none ∧
      c.tables = [⟨k, 7, [], 0⟩] := by
  refine ⟨by decide +kernel, by decide +kernel, by decide +kernel, by decide +kernel, ?_, by decide +kernel, ⟨_, rfl, by decide +kernel⟩,
    fun _ _ => ⟨_, rfl, rfl, rfl, rfl⟩⟩
  intro x hx
  exact ⟨_, rfl, rfl, by revert x; decide +kernel, by revert x; decide +kernel⟩

/-- A pending unit commit of one retirement on lane 7. -/
def retiring (k : UnitKind) (armed : Bool) (spare : Option Nat) : State :=
  State.modSys { State.reset with tickno := 9, unit := some ⟨9, armed, [⟨k, 7, 63, spare, none, none⟩]⟩ } fun y => { y with mcState := 2 }

theorem witness_LanesAndUnitsTakeEffect :
    (∀ up ∈ [true, false], ∀ x ∈ [(2 ^ 7, 0), (0, 2 ^ 15)],
      let q : LaneReq := ⟨up, x.1, x.2, 9, none⟩
      let s := { st [(LRX.STATE 7, if up then 0 else 3), (HRX.STATE 15, if up then 0 else 4)] with tickno := 9, lanes := [q] }
      s.lanes = [q] ∧ s.laneDue q = true ∧ s.lineUp 7 = !up ∧ s.hostUp 15 = !up ∧ s.sys.lanesIdle = false ∧
      s.sys.power.shutdown = none ∧ s.regionStarted (regionOfLine 7) = false ∧ s.regionStarted (regionOfHost 15) = false) ∧
    (State.reset.modRx 6 fun x => { x with step := 1 }).regionStarted (regionOfLine 7) = true ∧
    (State.reset.modHost 12 fun x => { x with step := 1 }).regionStarted (regionOfHost 15) = true ∧
    (retiring .ctxReplica true (some 65)).ctxRules 7 .ctx (some 65) = none ∧
    ((retiring .ctxReplica true (some 65)).modTbl 7 .ctx fun m => { m with active := { m.active with rate := some 9 } }).ctxRules 7 .ctx
      (some 65) = some "CTX-1" ∧
    (let s := { State.reset with lanes := [⟨true, 1, 0, 9, none⟩, ⟨false, 2, 0, 9, none⟩] }
     (∀ q ∈ s.lanes, q.up = true → s.laneDue q = false) ∧ ∀ q ∈ s.lanes, q.up = false → s.laneDue q = false) ∧
    (8 ≤ State.reset.rd (FEC.SCHED_SERVED 7) ∨ State.reset.rd (FEC.SCHED_SERVED 7) < 8) ∧
    State.reset.unit = none ∧
    (let s := retiring .ctxReplica false none
     s.mcServes = true ∧ reached (addTicks s.tickno 1) 9 = true ∧ s.replServes 7 .ctx 63 = true ∧ s.readySpares 7 .ctx = [] ∧
     (puts s [(CTX.REPL_READY_HI 7, 3)]).readySpares 7 .ctx ≠ []) ∧
    (∀ k ∈ [UnitKind.ctxReplica, .slice], (retiring k true (some 65)).unit = some ⟨9, true, [⟨k, 7, 63, some 65, none, none⟩]⟩ ∧
      (retiring k true (some 65)).mcServes = true ∧ (retiring k true (some 65)).unitDue = true ∧
      (retiring k true (some 65)).dueAt (dieOfLine 7) 9 = true ∧ (retiring k true (some 65)).dueBefore .unit = false) := by
  and_intros <;> decide +kernel

/-- A domain in reset whose clock source is locked or not. -/
def releasing (i : Nat) (lockedPll : Bool) (l : List (Nat × Nat)) : State :=
  (puts State.reset ((PWR.DOM_STATE i, 1) :: l)).modSys fun y => { y with
    resetting := [i], plls := List.replicate 8 { Pll.reset with locked := lockedPll } }

theorem witness_DomainsAndRegionPlls :
    (∀ i ∈ [3 * 7 + 2, 3 * 7, 40 + 15], ∀ b ∈ [true, false],
      let s := releasing i b [(LTX.SUBDAC_HEALTH 7, 15)]
      s.sys.resetting.contains i = true ∧ s.rd (PWR.DOM_STATE i) = 1 ∧ (i = 3 * 7 + 2 ∨ s.domLocked i = b)) ∧
    State.reset.sys.resetting.contains 95 = false ∧
    (let s := puts State.reset [(PWR.STATE, 1)]
     s.rd PWR.STATE < 2 ∧ (s.pll 7).locked = false ∧ (s.pll 7).relocking = false ∧ (s.pll 7).lost = false) ∧
    ((releasing 0 true []).pll 7).locked = true ∧
    (∀ n ∈ [0, 1000], let s := State.reset.modPll 7 fun p => { p with lost := true, relocking := true, tries := n }
      (s.pll 7).lost = true ∧ (s.pll 7).relocking = true ∧ (s.pll 7).waiting = false ∧ (s.pll 7).tries = n) ∧
    (0 < State.reset.rd PWR.WAKE_RETRIES ∧ State.reset.rd PWR.WAKE_RETRIES ≤ 1000) := by
  and_intros <;> decide +kernel

theorem witness_BridgeAndReferenceClock :
    State.reset.sys.bridgeLost = false ∧ (State.reset.modSys fun y => { y with bridgeLost := true }).sys.bridgeLost = true ∧
    (State.reset.rd PWR.STATE < 2 ∧ (State.reset.pll 7).locked = false) ∧ ((releasing 0 true []).pll 7).locked = true ∧
    2 ≤ (st [(PWR.STATE, 3)]).rd PWR.STATE ∧
    (let e : LogEntry := ⟨0, 5, 3, false, false, true, false, false, 0, 0x0101, 0, []⟩
     ({ State.reset with die1Log := [e] } : State).die1Log = [e] ∧ e.data = [] ∧ State.reset.log.length < 512) := by
  and_intros <;> decide +kernel

/-! ### Witnesses: lanes, windows, housekeeping, thermal -/

/-- Line lane 7 in this state, with these fields, its receive side changed so. -/
def lined (v : Nat) (l : List (Nat × Nat)) (f : RxLane → RxLane) : State := (st ((LRX.STATE 7, v) :: l)).modRx 7 f

theorem witness_SignalLossAndRelinks :
    (∀ x ∈ [(3, none, false), (2, some 0, false), (2, none, true), (2, none, false), (4, none, false)],
      let s := lined x.1 [] fun r => { r with dark := 255, relinkT := x.2.1, tracked := x.2.2 }
      s.rd (LRX.STATE 7) = x.1 ∧ s.bit (LRX.FLAGS 7) 0 = false ∧ s.rd (LRX.LOS_TICKS 7) ≤ (s.rxL 7).dark ∧
      (s.rxL 7).relinkT = x.2.1 ∧ (s.rxL 7).tracked = x.2.2) ∧
    (∀ x ∈ [(2, 3), (4, 0)], let s := lined x.1 [(LRX.FLAGS 7, 1), (LRX.AUTO_RELINK 7, 1)] fun r => { r with lit := 2, step := x.2 }
      s.bit (LRX.FLAGS 7) 0 = true ∧ 2 ≤ (s.rxL 7).lit ∧ (s.rxL 7).step = x.2 ∧ s.sys.lanesIdle = false ∧
      (s.rxL 7).holdLol = false ∧ (s.rxL 7).holdPll = false ∧ s.rd (LRX.AUTO_RELINK 7) = 1) ∧
    (∀ x ∈ [(2, true, 0), (3, false, 16), (1, true, 0), (4, true, 0)],
      let s := lined x.1 [] fun r => { r with overFreq := x.2.1, lolTicks := x.2.2 }
      s.rd (LRX.STATE 7) = x.1 ∧ s.bit (LRX.FLAGS 7) 0 = false ∧ s.bit (LRX.FLAGS 7) 1 = false ∧ (s.rxL 7).overFreq = x.2.1 ∧
      (s.rxL 7).lolTicks = x.2.2 ∧ (s.rxL 7).dark < s.rd (LRX.LOS_TICKS 7)) ∧
    (∀ b ∈ [true, false], let s := lined 2 [] fun r => { r with relinkT := some 0, fellBack := b }
      s.rd (LRX.STATE 7) = 2 ∧ (s.rxL 7).relinkT.isSome = true ∧ (s.rxL 7).fellBack = b ∧ s.commitUses 1 7 = false) ∧
    (∀ x ∈ [(2, 5), (2, 6), (2, 14), (2, 15), (3, 0)],
      let k := x.2
      let s := lined x.1 [(LRX.TR_ROW 7, 0)] fun r => { r with step := k, gain := [0, 1], dwell := 1 }
      s.rd (LRX.STATE 7) = x.1 ∧ (s.rxL 7).step = k ∧ s.dwellNow 7 ≠ 0 ∧ s.dwellNow 7 ≤ (s.rxL 7).dwell) ∧
    (let s := lined 2 [] fun r => { r with goodTicks := 64 }
     s.rd (LRX.STATE 7) = 2 ∧ 64 ≤ (s.rxL 7).goodTicks) ∧
    State.reset.rd (LRX.STATE 7) = 0 := by
  and_intros <;> decide +kernel

/-- A slice with the nominal gain, one whose gain cannot be corrected, and a sub-DAC within its ranges. -/
def flat : SliceMeas := ⟨0, 48 * 2 ^ 20, -48 * 2 ^ 20, 2 ^ 40, 0⟩
def steep : SliceMeas := ⟨0, 2 ^ 20, -2 ^ 20, 2 ^ 20, 0⟩
def fair : TrimMeas := ⟨0, 63 * 2 ^ 20, -63 * 2 ^ 20, 0⟩

theorem witness_LineCalibrationAndBringUp :
    (∀ b ∈ [0, 4], let s := { lined 1 [] fun r => { r with calMeth := 0, calT := 0, black := b } with tickno := 4 }
     s.rd (LRX.STATE 7) = 1 ∧ (s.rxL 7).calMeth = 0 ∧ 4 ≤ s.sinceL 7 (s.rxL 7).calT ∧ (s.rxL 7).black = b) ∧
    (WellFormed.slices (slices flat) = true ∧ WellFormed.slices [flat] = false ∧ WellFormed.subDacs [fair] = false ∧
      (WellFormed.subDacs (subDacs fair) = true ∧ slices flat ≠ [])) ∧
    (∀ x ∈ [(flat, flat, false, 0), (flat, steep, true, 0), (steep, steep, false, 66)],
      let s := (lined 1 [] fun r => { r with calMeth := 1, lit := 1 }).modSys fun y => { y with mcState := 2 }
      let c := s.rxCal 7 1 (slices x.1) (slices x.2.1)
      s.rd (LRX.STATE 7) = 1 ∧ (s.rxL 7).calMeth = 1 ∧ 0 < (s.rxL 7).lit ∧ c.degraded = x.2.2.1 ∧ s.unit = none ∧
      s.mcServes = true ∧ c.failed.length = x.2.2.2) ∧
    ((darkFit flat).sliceOk = true ∧ flat.minus < flat.plus ∧ (slices flat)[65]? = some flat) ∧
    (∀ x ∈ [(1, 0), (2, 0), (2, 1)], let s := lined 1 [(DEV.CALSRC_FAIL, 2 ^ 7)] fun r => { r with calMeth := x.1, lit := x.2 }
      s.rd (LRX.STATE 7) = 1 ∧ (s.rxL 7).calMeth = x.1 ∧ (s.rxL 7).lit = x.2 ∧ s.bit DEV.CALSRC_FAIL 7 = true) ∧
    (∀ m ∈ [0, 3], (lined 1 [] fun r => { r with calMeth := m }).rd (LRX.STATE 7) = 1) ∧
    (∀ m ∈ [flat, ⟨0, 0, 0, 2 ^ 40, 100⟩], let s := lined 3 [] fun r => { r with bgCal := some 0 }
     s.rd (LRX.STATE 7) = 3 ∧ (s.rxL 7).bgCal.isSome = true ∧
     (s.modRecipe 7 fun x => { x with meas := slices m }).slicesNear 7 = decide (m = flat)) ∧
    (let s := lined 2 [] fun r => { r with step := 4, cleanTicks := 64 }
     s.rd (LRX.STATE 7) = 2 ∧ (s.rxL 7).step = 4 ∧ 64 ≤ (s.rxL 7).cleanTicks ∧ (s.rxL 7).relinkT = none) ∧
    (State.reset.rd (LRX.STATE 7) = 0 ∧ (State.reset.rxL 7).bgCal = none ∧ (State.reset.rxL 7).cleanTicks < 64) ∧
    ((∀ f ∈ trimFits (subDacs fair), f.trimOk = true) ∧ ∃ f ∈ trimFits (subDacs ⟨2 ^ 30, 0, 0, 0⟩), f.trimOk = false) ∧
    (∀ k ∈ [2, 3], let s := { (st [(LTX.STATE 7, 1)]).modTx 7 fun x => { x with step := k, step3T := 0 } with tickno := 64 }
      s.rd (LTX.STATE 7) = 1 ∧ (s.txL 7).step = k ∧ s.passed (dieOfLine 7) (s.txL 7).step3T 64 = true) := by
  and_intros <;> decide +kernel

/-- Host lane 15 in this state, with these fields, changed so. -/
def hosted (v : Nat) (l : List (Nat × Nat)) (f : HostLaneSt → HostLaneSt) : State := (st ((HRX.STATE 15, v) :: l)).modHost 15 f

theorem witness_FramingAndHostLanes :
    (let s := lined 3 [(FEC.FRAME_STATE 7, 1)] fun r => { r with passedTwice := [255], winDone := some 512 }
     (s.rxL 7).passedTwice = [255] ∧ s.rd (FEC.FRAME_STATE 7) = 1 ∧ (s.rxL 7).winDone = some 512 ∧ s.lossHolds 7 = true) ∧
    (let s := lined 3 [(FEC.FRAME_STATE 7, 2)] fun r => { r with lofTicks := 4 }
     s.rd (FEC.FRAME_STATE 7) = 2 ∧ 4 ≤ (s.rxL 7).lofTicks ∧ s.bit (LRX.FLAGS 7) 0 = false ∧ s.lossHolds 7 = false ∧
     (s.rxL 7).dark < s.rd (LRX.LOS_TICKS 7) ∧ (s.rxL 7).winDone = none) ∧
    (let s := st ([6, 7].flatMap fun n => [(LRX.STATE n, 3), (FEC.FRAME_STATE n, 2)])
     s.tapValid 3 true = true ∧ s.tapValid 3 false = false ∧ ([0, 1, 2, 3] : List Nat).length = 4 ∧
     (∀ x ∈ [0, 1, 2, 3], ∀ y ∈ [0, 1, 2, 3], x ≤ y + tapSkewMax (s.rate 1) true) ∧
     ∃ x ∈ [0, 1, 2, 10000], ∀ y ∈ [0, 1, 2, 3], ¬ x ≤ y + tapSkewMax (s.rate 1) true) ∧
    ((st [(FEC.FLAGS 6, 4)]).bit (FEC.FLAGS 6) 2 = true ∧ State.reset.bit (FEC.FLAGS 6) 2 = false) ∧
    (let s := hosted 3 [(HRX.EBUF_FILL 15, 17)] id
     s.rd (HRX.STATE 15) = 3 ∧ 16 < (s.rdS (HRX.EBUF_FILL 15)).natAbs) ∧
    (∀ v ∈ [1, 2, 3, 4, 5], let s := hosted v [] fun h => { h with dark := 255 }
      s.rd (HRX.STATE 15) = v ∧ s.bit (HRX.FLAGS 15) 0 = false ∧ s.rd (HRX.LOS_TICKS 15) ≤ (s.hostL 15).dark) ∧
    (∀ v ∈ [1, 5], let s := hosted v [(HRX.FLAGS 15, 1), (HRX.AUTO_RELINK 15, 0)] fun h => { h with lit := 2 }
      s.rd (HRX.STATE 15) = v ∧ s.bit (HRX.FLAGS 15) 0 = true ∧ 2 ≤ (s.hostL 15).lit ∧ s.rd (HRX.AUTO_RELINK 15) = 0 ∧
      (s.hostL 15).holdGo = false) ∧
    (∀ v ∈ [2, 3], let s := hosted v [] fun h => { h with slips := true, good := 64, quiet := 4, ready := true, partnerReady := true }
      s.rd (HRX.STATE 15) = v ∧ s.bit (HRX.FLAGS 15) 0 = false ∧ (s.hostL 15).slips = true ∧ s.bit (HRX.FLAGS 15) 1 = false ∧
      (s.hostL 15).dark < s.rd (HRX.LOS_TICKS 15) ∧ 64 ≤ (s.hostL 15).good ∧ 4 ≤ (s.hostL 15).quiet ∧ (s.hostL 15).ready = true ∧ (s.hostL 15).partnerReady = true) ∧
    (∀ v ∈ [62, 63], let taps : List Int := (List.range 6).map fun j => (hosted 2 [(HTX.FIR_TAP 15 3, v)] id).rdS (HTX.FIR_TAP 15 j)
      txTapsOk (taps.set 3 (taps.getD 3 0 + 1)) = true) ∧
    (let taps : List Int := (List.range 6).map fun j => (hosted 2 [(HTX.FIR_TAP 15 3, 64)] id).rdS (HTX.FIR_TAP 15 j)
     txTapsOk (taps.set 3 (taps.getD 3 0 + 1)) = false) ∧
    (let s := hosted 2 [] id
     s.rd (HRX.STATE 15) = 2 ∧ (∀ p ∈ [1, 5], txTapsOk (s.sys.bundle.preset 15 p) = true)) ∧
    (let s := hosted 5 [(HRX.AUTO_RELINK 15, 1)] fun h => { h with holdCheck := true }
     s.rd (HRX.STATE 15) = 5 ∧ (s.hostL 15).holdCheck = true ∧ (s.hostL 15).holdLos = false ∧ (s.hostL 15).holdPll = false ∧
     s.rd (HRX.AUTO_RELINK 15) = 1) ∧
    State.reset.rd (HRX.STATE 15) = 0 := by
  and_intros <;> decide +kernel

theorem witness_WindowsCapturesAndReferences :
    (let q : List Moments := List.replicate 8 (List.replicate 4 (0, 0, 0))
     let h : List Moments := List.replicate 16 (List.replicate 4 (0, 0, 0))
     q.length = 8 ∧ h.length = 16 ∧ (∀ m ∈ q, m.length = 4) ∧ (∀ m ∈ h, m.length = 4)) ∧
    (State.reset.tickno % max 1 (State.reset.rd DEV.QUAL_WIN) = 0 ∧ 1 % max 1 (State.reset.rd DEV.QUAL_WIN) ≠ 0) ∧
    (State.reset.recipes 0 = false ∧ (st [(JNR.STATE 0, 2)]).recipes (dieOfHost 15) = true) ∧
    (∀ x ∈ [(15565, true), (15564, false)], decide (15564800 ≤ x.1 * 1000 ∧ x.1 * 1000 ≤ 17203200) = x.2) ∧
    (State.reset.sys.refcal = none ∧ ∀ b ∈ [true, false],
      (State.reset.modSys fun y => { y with refcal := some ⟨b, none⟩, power := { y.power with cold := 8 } }).sys.refcal = some ⟨b, none⟩) ∧
    (State.reset.rd (OBS.CAP_STATE 7) ≠ 1 ∧ State.reset.capLeft 7 ≠ some 0 ∧ State.reset.hists.getD 7 none = none) ∧
    (∀ h ∈ [some 5, none], let s := (st [(OBS.CAP_STATE 7, 1)]).modCap 7 fun c => { c with hit := h, trigger := 5, trigTick := 0 }
      s.rd (OBS.CAP_STATE 7) = 1 ∧ (s.cap 7).hit = h ∧ (s.cap 7).trigger = 5 ∧ reached s.tickno (s.cap 7).trigTick = true) ∧
    ((st [(OBS.CAP_STATE 7, 2), (OBS.CAP_WPOS 7, 3), (OBS.CAP_TRIG_POS 7, 1)]).modCap 7 fun c => { c with post := 2 }).capLeft 7 = some 0 ∧
    (∀ k ∈ [0, 1], ({ State.reset with hists := List.replicate 8 (some ⟨List.replicate 64 1, k⟩) } : State).hists.getD 7 none =
      some ⟨List.replicate 64 1, k⟩) ∧
    (let x : Suppressed := ⟨0x1003, 7, 1, false, 70000⟩
     ({ State.reset with suppr := [x] } : State).suppr = [x] ∧ State.reset.logRecent x.code x.inst < 8 ∧
     8 ≤ ({ State.reset with recent := List.replicate 8 (0x1003, 7, 0) } : State).logRecent x.code x.inst) := by
  and_intros <;> decide +kernel

/-- The state after reset with the converters powered, the reference clock running and the housekeeping converter changed so. -/
def converting (f : Hk → Hk) : State := (st [(PWR.DOM_STATE 87, 1), (PWR.DOM_STATE 88, 1), (PWR.CLK_STATE 40, 1)]).modSys fun y => { y with hk := f y.hk }

/-- The same with this trigger source. -/
def trigged (t : Nat) (f : Hk → Hk) : State := (converting f).wr HK.SEQ_TRIG t

theorem witness_HousekeepingAndBiasOutputs :
    State.reset.adcOn = false ∧ State.reset.refOn = false ∧ (converting id).refOn = true ∧
    (let s := converting fun h => { h with cal := some ⟨0, 31, 0, 0, 0, 0⟩ }
     s.adcOn = true ∧ s.sys.hk.pass = none ∧ s.sys.hk.cal = some ⟨0, 31, 0, 0, 0, 0⟩ ∧ s.sys.hk.start = false ∧ 0 + 1 ≠ 1024) ∧
    (∀ k ∈ [0, 63], (converting fun h => { h with pass := some k, steps := List.replicate 64 0 }).sys.hk.pass = some k) ∧
    (let s := trigged 1 id
     s.adcOn = true ∧ s.sys.hk.pass = none ∧ s.rd HK.SEQ_TRIG = 1 ∧ s.rd HK.STATE ≠ 3) ∧
    (∀ t ∈ [2, 3], ∀ b ∈ [true, false], let s := trigged t fun h => { h with latched := b, start := b }
      s.rd HK.SEQ_TRIG = t ∧ s.adcOn = true ∧ s.sys.hk.latched = b ∧ s.sys.hk.start = b ∧ s.sys.hk.pass = none) ∧
    ((st [(BDAC.HOLD, 2 ^ 23)]).bit BDAC.HOLD 23 = true ∧ State.reset.dacOn = false) ∧
    (∀ ph ∈ [none, some SpanPhase.down, some .wait, some .up], let s := (converting id).modBias 23 fun b => { b with phase := ph }
      s.bit BDAC.HOLD 23 = false ∧ s.dacOn = true ∧ (s.bias 23).phase = ph) ∧
    (∀ b ∈ [true, false], ((converting id).wr BDAC.SC_SAFE (if b then 2 ^ 23 else 0)).bit BDAC.SC_SAFE 23 = b) := by
  and_intros <;> decide +kernel

/-- Region 3 is to step to a level. -/
def throttling (now : Nat) (last : Option Nat) : State :=
  { State.reset with tickno := now }.modSys fun y => { y with
    therm := { y.therm with step := List.replicate 4 (some (7, 4)), lastStep := List.replicate 4 last } }

theorem witness_ThermalAndTransmitDisable :
    (-200 ≤ (BitVec.ofInt 16 (-200)).toInt ∧ (BitVec.ofInt 16 600).toInt ≤ 600) ∧
    (let s := st [(PWR.DOM_STATE 89, 1)]
     s.thermOn = true ∧ s.rd PWR.STATE < 2 ∧ s.sys.power.cold = 0 ∧ s.rd THM.SENSOR_FAIL = 0 ∧ s.sys.thermShut = false) ∧
    (State.reset.thermOn = false ∧ 2 ≤ (st [(PWR.STATE, 2)]).rd PWR.STATE ∧ (st [(PWR.STATE, 2)]).thermOn = false) ∧
    (State.reset.thr THM.SHUT_THR ≤ 600 ∧ -200 < State.reset.thr THM.SHUT_THR ∧ State.reset.rd THM.MODE = 0 ∧
      State.reset.rd (THM.RG_LEVEL 3) = 0 ∧ State.reset.thr THM.THROT_THR ≤ 600 ∧
      State.reset.thr THM.THROT_THR < State.reset.thr THM.SHUT_THR ∧ 1 ≤ State.reset.rd THM.THROT_MAX ∧
      State.reset.sys.therm.step.getD 3 none = none) ∧
    (∀ b ∈ [true, false], let s := State.reset.modSys fun y => { y with txDis := b, therm := { y.therm with lanesDown := b, aonShut := b } }
      s.sys.txDis = b ∧ s.sys.therm.lanesDown = b ∧ s.sys.therm.aonShut = b) ∧
    (let s := throttling 4 (some 0)
     s.sys.therm.step.getD 3 none = some (7, 4) ∧ s.dueAt 1 4 = true ∧ s.sys.therm.lastStep.getD 3 none = some 0 ∧
     4 ≤ s.since 1 0 ∧ s.dueBefore .throttle = false ∧ s.sys.thermShut = false ∧ s.rd (THM.RG_LEVEL 3) ≠ 7) ∧
    ((throttling 3 none).dueAt 1 4 = false ∧ ¬ 4 ≤ (throttling 4 (some 1)).since 1 1 ∧
      { throttling 4 none with live := [⟨LTX.SQUELCH 7, 1, 4⟩] }.dueBefore .throttle = true) := by
  and_intros <;> decide +kernel

/-! ### Witnesses: power, resets, firmware, images -/

/-- A reset state with these fields written and the power transitions changed so. -/
def powered (l : List (Nat × Nat)) (f : Power → Power) : State := (st l).modSys fun y => { y with power := f y.power }

/-- A request of the power machinery. -/
def sleepRef : ReqRef := ⟨3, .spi, 7, 0x40, false, []⟩

/-- A SLEEP into this state, its reply read or not. -/
def sleepy (dst : Nat) (unread : Bool) : State :=
  let s := powered [] fun p => { p with sleep := some ⟨dst, 0x18, false, 1, sleepRef⟩ }
  if unread then s.modTrans .spi fun t => { t with replies := [⟨sleepRef, .ok, 0, .data [], true⟩] } else s

theorem witness_SleepEntrySteps :
    State.reset.sys.power.sleep = none ∧
    (∀ dst ∈ [1, 2, 3], (sleepy dst false).sys.power.sleep = some ⟨dst, 0x18, false, 1, sleepRef⟩ ∧
      (∀ x ∈ ((sleepy dst false).trans .spi).replies, x.ref.rid ≠ 3) ∧ (∃ x ∈ ((sleepy dst true).trans .spi).replies, x.ref.rid = 3) ∧
      reached (sleepy dst true).tickno 1 = false ∧ (sleepy dst false).entryRefuser dst = none) ∧
    ({ sleepy 1 false with longOps := [op9] } : State).entryRefuser 1 = some 0x22 ∧
    (∀ x ∈ [(2, 2, false), (2, 3, true), (2, 3, false), (3, 2, false), (3, 3, false)],
      let s := powered [] fun p => { p with entry := x.1, entryTo := x.2.1, selfTest := x.2.2 }
      s.sys.power.entry = x.1 ∧ s.sys.power.entryTo = x.2.1 ∧ s.sys.power.selfTest = x.2.2 ∧ s.drained = true ∧ s.sys.selfTest = none) ∧
    (State.reset.modTbl 7 .shp fun m => { m with window := some 5 }).drained = false ∧
    (∀ v ∈ [15, 59999], let s := powered [(PWR.VCORE_TARGET, v)] fun p => { p with entry := 5 }
      s.sys.power.entry = 5 ∧ s.sys.power.early = false ∧ s.rd PWR.VCORE_TARGET = v) := by
  and_intros <;> decide +kernel

theorem witness_WakeSourcesAndSteps :
    (∀ v ∈ [1, 2, 3], let s := powered [(PWR.STATE, v)] fun p => { p with mask := 8 }
      s.sys.power.mask.testBit 3 = true ∧ (s.sys.power.entry = 0 ∧ s.sys.power.wake = 0 ∧ s.sys.power.cold = 0) ∧
      s.rd PWR.STATE = v ∧ s.tooHot = false) ∧
    (let s := powered [(PWR.STATE, 2), (PWR.WAKE_LANES, 2 ^ 23 + 2 ^ 7), (PWR.WAKE_HOST_MASK, 2 ^ 15), (PWR.WAKE_LINE_MASK, 2 ^ 7)] fun p =>
       { p with mask := 3 }
     s.watched true 15 = true ∧ s.watched false 7 = true ∧ s.watched false 6 = false) ∧
    (State.reset.rd PWR.STATE ≠ 1 ∧ State.reset.rd PWR.STATE ≠ 2) ∧
    (∀ k ∈ [1, 2, 4, 5, 6, 7], let s := powered [] fun p => { p with wake := k, refs := [sleepRef] }
      s.sys.power.waiting = false ∧ s.sys.power.wake = k ∧ s.sys.power.refs = [sleepRef] ∧ s.sys.power.cold = 0) ∧
    ((powered [] id).bothSampled = false ∧
      ((powered [] id).modSys fun y => { y with therm := { y.therm with sampled := [1, 0] } }).bothSampled = true) ∧
    (waitRefuser false 1 0 = some 1 ∧ waitRefuser false 5 0 = none ∧ waitRefuser false 4 7 = some 0x17) ∧
    ((7 : Fin 8).val / 2 ∈ regionsOf ((powered [(PWR.WAKE_LANES, 2 ^ 7)] id).rd PWR.WAKE_LANES) ∧
      (5 : Fin 8).val / 2 ∉ regionsOf ((powered [(PWR.WAKE_LANES, 2 ^ 7)] id).rd PWR.WAKE_LANES)) ∧
    (0 < State.reset.rd PWR.WAKE_RETRIES ∧ (powered [(PWR.WAKE_RETRIES, 0)] id).rd PWR.WAKE_RETRIES ≤ 0) ∧
    (∀ c ∈ [0, 3], ∀ v ∈ [0, 1], let s := powered [(RST.FLAGS, v)] fun p => { p with waiting := true, cold := c }
      s.sys.power.waiting = true ∧ s.tooHot = false ∧ s.sys.power.cold = c ∧ s.bit RST.FLAGS 0 = decide (v = 1)) := by
  and_intros <;> decide +kernel

theorem witness_SuppliesAndVoltage :
    (∀ x ∈ [(775, true), (605, false)], let s := st [(PWR.VCORE_TARGET, x.1)]
      let v := if x.2 then s.rd PWR.VCORE_TARGET + 5 else s.rd PWR.VCORE_TARGET - 5
      s.rd PWR.STATE < 2 ∧ 600 ≤ v ∧ v ≤ 780) ∧
    ¬ ((st [(PWR.VCORE_TARGET, 780)]).rd PWR.VCORE_TARGET + 5 ≤ 780) ∧
    (∀ b ∈ [true, false], (State.reset.modSys fun y => { y with pins := { y.pins with vaonMain := b } }).sys.pins.vaonMain = b) ∧
    (∀ b ∈ [true, false], let s := powered [(PWR.DOM_STATE 87, 1)] fun p => { p with supplyOff := b }
      s.sys.power.supplyOff = b ∧ s.rd PWR.STATE < 2 ∧ s.sys.power.cold = 0 ∧ s.rd (PWR.DOM_STATE 87) = 1 ∧ s.sys.power.waiting = false) ∧
    (let s := powered [(PWR.STATE, 2)] id
     s.sys.power.supplyOff = false ∧ s.rd PWR.STATE = 2 ∧ s.sys.power.wake = 0) := by
  and_intros <;> decide +kernel

/-- RESET_N is low. -/
def low (s : State) : State := s.modSys fun y => { y with pins := { y.pins with resetN := false } }

/-- The cold start is at this step, with these fields. -/
def starting (k : Nat) (l : List (Nat × Nat)) : State := powered l fun p => { p with cold := k }

theorem witness_ResetsAndColdStart :
    (isFused DEV.SERIAL = true ∧ isFused PWR.STATE = false ∧ isHealth RST.PAIR_USABLE = true) ∧
    (State.reset.sys.pins.resetN = true ∧ State.reset.recent = []) ∧
    (let s := low (serving [])
     (s.sys.pins.resetN = false ∧ s.sys.power.escalated = false ∧ s.sys.power.warm = false) ∧ s.rd PWR.STATE < 2 ∧
     s.sys.power.entry = 0 ∧ s.sys.power.cold = 0 ∧ s.sys.power.supplyOff = false ∧ s.sys.mcState ≠ 0) ∧
    (let s := low (powered [(PWR.STATE, 2)] id)
     s.sys.power.wake = 0 ∧ s.rd PWR.STATE = 2 ∧ s.tooHot = false) ∧
    (∀ x ∈ [(true, false), (false, true), (false, false)],
      let s := low (powered [] fun p => { p with escalated := x.1, warm := x.2 })
      s.sys.power.escalated = x.1 ∧ s.sys.power.warm = x.2 ∧ s.sys.mcState = 0 ∧ s.rd PWR.STATE = 0) ∧
    (∀ n ∈ [0, 2], let s := starting 2 [(RST.TRIM_ATTEMPTS, n)]
      s.sys.power.cold = 2 ∧ s.sys.power.warm = false ∧ s.rd RST.TRIM_ATTEMPTS = n ∧ n < 3) ∧
    ((st [(RST.FLAGS, 1)]).bit RST.FLAGS 0 = true ∧ (st [(RST.FLAGS, 1)]).bit RST.FLAGS 1 = false) ∧
    (∀ k ∈ [1, 3, 4, 7], let s := starting k [(PWR.VCORE_TARGET, 15)]
      s.sys.power.waiting = false ∧ s.sys.power.cold = k ∧ 15 ≤ s.rd PWR.VCORE_TARGET ∧ s.rd PWR.VCORE_TARGET < 60000 ∧
      s.newest imgHealth = none ∧ s.rd (TEN.EN 0) = 0) ∧
    (∀ v ∈ [1, 4, 0], let s := starting 4 [(RST.PAIR_USABLE, v)]
      s.bit RST.PAIR_USABLE 0 = decide (v = 1) ∧ s.bit RST.PAIR_USABLE 2 = decide (v = 4)) ∧
    ({ State.reset with sys := { Sys.reset with txDis := true } } : State).sys.txDis = true ∧
    (waitRefuser true 3 7 = some 4 ∧ waitRefuser true 5 0 = none) := by
  and_intros <;> decide +kernel

/-- An image header of a type, key slot 0, stepping 0, with this body length and CRC. -/
def header (ty len crc : Nat) : List Byte :=
  [0x55, 0x58, 0x47, 0x49, byteOf ty, 1, 0, 0] ++ le 4 len ++ List.replicate 48 0 ++ le 4 crc

/-- A firmware image without a body, its key and signature all ones, and copy A with it and SEQ 1. -/
def fwImg : List Byte := header 0 0 0x39132BD5 ++ List.replicate 192 0xFF
def fwFlash : List (Nat × Nat) :=
  ((List.range 64).map fun i => (0x100000 + i, ((header 0 0 0x39132BD5).getD i 0).toNat)) ++
    (List.range 8).map fun i => (0x1FFFF0 + i, ((le 4 1 ++ le 4 0x3B0B61E2).getD i 0).toNat)

/-- The state after reset with that flash, and changed otherwise. -/
def flashed (f : Sys → Sys) : State := State.reset.modSys fun y => f { y with images := { y.images with flash := fwFlash } }

/-- The key of the image is the fused one and signs everything. FIPS 186-5 is left open (log 7), so that some signature
verifies is an assumption. -/
def Trusts : Prop :=
  Config.sha384 (List.replicate 96 0xFF) = Config.rootKey ∧ ∀ m, Config.ecdsaOk (List.replicate 96 0xFF) m (List.replicate 96 0xFF) = true

/-- One CRC register over bytes, so that a long CRC is found in parts. -/
def crcRun (c : BitVec 32) (bs : List Byte) : BitVec 32 :=
  bs.foldl (fun (c : BitVec 32) (b : Byte) => (List.range 8).foldl (fun c _ => crc32Bit c) (c ^^^ BitVec.ofNat 32 b.toNat)) c

theorem crcRun_append (c : BitVec 32) (xs ys : List Byte) : crcRun c (xs ++ ys) = crcRun (crcRun c xs) ys := by
  unfold crcRun; rw [List.foldl_append]

theorem fwImg_crc : crc32 (fwImg ++ le 4 1) = 0x3B0B61E2 := by
  have e : ∀ bs, crc32 bs = crcRun 0xFFFFFFFF bs ^^^ 0xFFFFFFFF := fun _ => rfl
  have r : List.replicate 192 (0xFF : Byte) = List.replicate 64 0xFF ++ (List.replicate 64 0xFF ++ List.replicate 64 0xFF) := by
    simp only [List.replicate_append_replicate]
  have a1 : crcRun 0xFFFFFFFF (header 0 0 0x39132BD5) = 0xDEBB20E3 := by decide +kernel
  have a2 : crcRun 0xDEBB20E3 (List.replicate 64 0xFF) = 0x95C475DE := by decide +kernel
  have a3 : crcRun 0x95C475DE (List.replicate 64 0xFF) = 0x9DF3D430 := by decide +kernel
  have a4 : crcRun 0x9DF3D430 (List.replicate 64 0xFF) = 0x947D8E12 := by decide +kernel
  have a5 : crcRun 0x947D8E12 (le 4 1) = 0xC4F49E1D := by decide +kernel
  rw [e, fwImg, r]
  simp only [crcRun_append, a1, a2, a3, a4, a5]
  decide

theorem copyImg_congr {s b : State} (ty c : Nat) (h : s.sys.images.flash = b.sys.images.flash) :
    s.copyImg ty c = b.copyImg ty c ∧ s.copyTrailer ty c = b.copyTrailer ty c := by
  have f : ∀ a n, s.flashAt a n = b.flashAt a n := fun _ _ => by rw [State.flashAt, State.flashAt, h]
  exact ⟨by simp only [State.copyImg, f], by simp only [State.copyTrailer, f]⟩

theorem copySeq_congr {s b : State} (ty c : Nat) (h1 : s.regs = b.regs) (h2 : s.sys.images.flash = b.sys.images.flash)
    (h3 : s.sys.images.keys = b.sys.images.keys) : s.copySeq ty c = b.copySeq ty c := by
  have r : ∀ a, s.rd a = b.rd a := fun _ => by rw [State.rd, State.rd, h1]
  have i : ∀ img, s.imageFault ty img = b.imageFault ty img := fun img => by
    have e1 : s.headerOk ty img = b.headerOk ty img := by rw [State.headerOk, State.headerOk, r]
    have e2 : s.svnOk ty img = b.svnOk ty img := by rw [State.svnOk, State.svnOk, r]
    have e3 : s.sigOk ty img = b.sigOk ty img := by
      rw [State.sigOk, State.sigOk, State.keyHash, State.keyHash, h3, State.bit, State.bit, State.bit, State.bit, r]
    rw [State.imageFault, State.imageFault, e1, e2, e3]
  rw [State.copySeq, State.copySeq, (copyImg_congr ty c h2).1, (copyImg_congr ty c h2).2, i]

theorem fw_valid (h : Trusts) : (flashed id).copySeq 0 0 = some 1 := by
  have e0 : (flashed id).copyImg 0 0 = fwImg := by decide +kernel
  have e1 : getLe fwImg 6 1 = 0 := by decide +kernel
  have e2 : (fwImg.drop (64 + bodyLen fwImg)).take 96 = List.replicate 96 0xFF := by decide +kernel
  have e3 : (fwImg.drop (160 + bodyLen fwImg)).take 96 = List.replicate 96 0xFF := by decide +kernel
  have e4 : ¬ fwImg.length < imgLen 0 fwImg := by decide +kernel
  have e5 : (flashed id).headerOk 0 fwImg = true := by decide +kernel
  have e6 : (flashed id).svnOk 0 fwImg = true := by decide +kernel
  have e7 : (flashed id).copyTrailer 0 0 = le 4 1 ++ le 4 0x3B0B61E2 ++ List.replicate 8 0xFF := by decide +kernel
  have k1 : (flashed id).bit RST.KEY_STATE 0 = true := by decide +kernel
  have k2 : (flashed id).bit RST.KEY_STATE 4 = false := by decide +kernel
  have e8 : (flashed id).sigOk 0 fwImg = true := by
    simp only [State.sigOk, e1, e2, e3, h.2, k1, k2, State.keyHash, h.1, if_true]
    simp
  have e9 : trailerOk fwImg (le 4 1 ++ le 4 0x3B0B61E2 ++ List.replicate 8 0xFF) = true := by
    have t1 : getLe (le 4 1 ++ le 4 0x3B0B61E2 ++ List.replicate 8 (0xFF : Byte)) 0 4 = 1 := by decide +kernel
    have t2 : getLe (le 4 1 ++ le 4 0x3B0B61E2 ++ List.replicate 8 (0xFF : Byte)) 8 4 = 0xFFFFFFFF := by decide +kernel
    have t3 : getLe (le 4 1 ++ le 4 0x3B0B61E2 ++ List.replicate 8 (0xFF : Byte)) 4 4 = 0x3B0B61E2 := by decide +kernel
    simp only [trailerOk, t1, t2, t3, fwImg_crc]
    decide
  have f : (flashed id).imageFault 0 fwImg = none := by simp [State.imageFault, e5, e4, e8, e6]
  have t1 : getLe (le 4 1 ++ le 4 0x3B0B61E2 ++ List.replicate 8 (0xFF : Byte)) 0 4 = 1 := by decide +kernel
  simp only [State.copySeq, e0, e7, f, e9, t1]
  rfl

theorem newest_of {s : State} {q : Nat} (a : s.copySeq 0 0 = some q) (b : s.copySeq 0 1 = none) : s.newest 0 = some (0, q) := by
  unfold State.newest
  split
  next h1 h2 => cases b.symm.trans h2
  next h1 h2 => cases a.symm.trans h1; rfl
  next h1 h2 => cases b.symm.trans h2
  next h1 h2 => cases a.symm.trans h1

/-- Copy A is the newest firmware, copy B is not valid, in every state with that flash and no field written. -/
theorem fw_newest (h : Trusts) (f : Sys → Sys) (h1 : (flashed f).regs = (flashed id).regs)
    (h2 : (flashed f).sys.images.flash = (flashed id).sys.images.flash)
    (h3 : (flashed f).sys.images.keys = (flashed id).sys.images.keys) :
    (flashed f).copySeq 0 0 = some 1 ∧ (flashed f).newest 0 = some (0, 1) ∧ (flashed f).copyImg 0 0 = fwImg := by
  have b0 : (flashed id).copySeq 0 1 = none := by decide +kernel
  have a : (flashed f).copySeq 0 0 = some 1 := (copySeq_congr (s := flashed f) (b := flashed id) 0 0 h1 h2 h3).trans (fw_valid h)
  have b : (flashed f).copySeq 0 1 = none := (copySeq_congr (s := flashed f) (b := flashed id) 0 1 h1 h2 h3).trans b0
  have c : (flashed id).copyImg 0 0 = fwImg := by decide +kernel
  exact ⟨a, newest_of a b, (copyImg_congr 0 0 h2).1.trans c⟩

/-- The firmware of copy A is at step 6 of a cold start, is to be activated, or is what the recovery service wrote. -/
def booting : Sys → Sys := fun y => { y with power := { y.power with cold := 6 } }
def activating (q : Option Nat) : Sys → Sys := fun y => { y with images := { y.images with act := some ⟨sleepRef, 0, 1, q⟩ } }
def recovered : Sys → Sys := fun y => { y with recovery := true, power := { y.power with restart := some false } }

/-- The activation's pause begins while a commit is pending. -/
def pausing : State := (flashed (activating none)).modDom 0 fun d => { d with commit := some ⟨9, false, [], [], none, sleepRef⟩ }

theorem witness_FirmwareServesAndActivates (h : Trusts) :
    ((flashed booting).sys.power.cold = 6 ∧ (flashed booting).bootImg 0 = some (fwImg, 1, 1)) ∧
    ((flashed recovered).sys.recovery = true ∧ (flashed recovered).bit RST.FLAGS 6 = false ∧ (flashed recovered).newest 0 ≠ none ∧
      (flashed recovered).sys.power.restart = some false) ∧
    (∀ q, (flashed (activating q)).sys.images.act = some ⟨sleepRef, 0, 1, q⟩ ∧
      (flashed (activating q)).actImg ⟨sleepRef, 0, 1, q⟩ = some (fwImg, 1, 1)) ∧
    ((flashed (activating none)).rd DEV.FW_SEQ < 1 ∧ ((flashed (activating none)).wr DEV.FW_SEQ 1).rd DEV.FW_SEQ = 1) ∧
    ((∀ d ∈ (flashed (activating none)).doms, d.commit = none) ∧ (flashed (activating none)).pubs = []) ∧
    ((∃ d ∈ pausing.doms, d.commit ≠ none) ∧ pausing.sys.images.act = some ⟨sleepRef, 0, 1, none⟩ ∧ pausing.rd DEV.FW_SEQ < 1 ∧
      pausing.actImg ⟨sleepRef, 0, 1, none⟩ = some (fwImg, 1, 1)) ∧
    State.reset.actImg ⟨sleepRef, 0, 1, none⟩ = none := by
  have hb := fw_newest h booting rfl rfl rfl
  have hr := fw_newest h recovered rfl rfl rfl
  refine ⟨⟨rfl, ?_⟩, ⟨rfl, by decide +kernel, by rw [hr.2.1]; exact Option.some_ne_none _, rfl⟩, fun q => ⟨rfl, ?_⟩, by decide +kernel,
    ⟨by decide +kernel, rfl⟩, ⟨by decide +kernel, rfl, by decide +kernel, ?_⟩, by decide +kernel⟩
  · have e : (flashed booting).rd DEV.BOOT_SRC = 0 := by decide +kernel
    simp only [State.bootImg, e, hb.2.1, hb.2.2, Option.map_some]
  · have ha := fw_newest h (activating q) rfl rfl rfl
    simp only [State.actImg, ha.1, ha.2.2, Option.map_some]
    rfl
  · have a := (copySeq_congr (s := pausing) (b := flashed id) 0 0 rfl rfl rfl).trans (fw_valid h)
    have c := (copyImg_congr (s := pausing) (b := flashed id) 0 0 rfl).1
    have c0 : (flashed id).copyImg 0 0 = fwImg := by decide +kernel
    simp only [State.actImg, a, c, c0, Option.map_some]
    rfl

theorem witness_FirmwareServesAndActivates_other :
    (∀ k ∈ [6, 9], let s := powered [(DEV.ROLE, 0)] fun p => { p with cold := k, fromSleep := true }
      s.sys.power.cold = k ∧ s.bootImg 0 = none ∧ s.rd DEV.ROLE ≠ 2 ∧ s.sys.recovery = false ∧ s.sys.pins.testMode = false ∧
      s.bootImg 1 = none ∧ s.bootImg 2 = none) ∧
    (let s := powered [(DEV.ROLE, 2), (DEV.BOOT_SRC, 1)] fun p => { p with cold := 6 }
     s.linkBoot = true ∧ s.portUp 0 = false ∧ s.sys.recovery = false) ∧
    ((∀ v ∈ [Via.spi, .i2c, .tenon], (State.reset.trans v).waiting = []) ∧ (serving []).sys.mcState = 2 ∧ State.reset.sys.mcState ≠ 2) ∧
    (1 < State.reset.rd RST.WDT_LIMIT ∧ (st [(RST.WDT_LIMIT, 1)]).rd RST.WDT_LIMIT ≤ 1) ∧
    (let s := (serving []).modTrans .i2c fun t => { t with outstanding := [⟨0, .i2c, 7, 1, false, []⟩] }
     (s.trans .i2c).outstanding = [⟨0, .i2c, 7, 1, false, []⟩] ∧ (s.trans .i2c).waiting = [] ∧ (s.trans .i2c).replies = [] ∧
     (s.trans .spi).outstanding = [] ∧ (s.trans .tenon).outstanding = [] ∧ s.loads = [] ∧ s.doms = [.reset, .reset]) ∧
    (∀ b ∈ [true, false], let s := powered [(RST.WARM_LANES, 1), (JNR.STATE 0, 3)] fun p => { p with restart := some b }
      s.sys.power.restart = some b ∧ s.sys.power.warm = false ∧ s.sys.recovery = false ∧ s.bit RST.FLAGS 6 = false ∧ s.split = false ∧ s.rd RST.WARM_LANES ≠ 0 ∧
      s.sys.thermShut = false ∧ s.noJoiner = false ∧ s.servJ 0 = 0 ∧ s.rd (JNR.STATE 0) = 3) ∧
    (let s := { (serving []).modSys fun y => { y with images := { y.images with lockSvn := true } } with tickno := 3600 * 864664 }
     s.sys.mcState = 2 ∧ s.sys.images.lockSvn = true ∧ 3600 * s.ticksPerSecond ≤ ticksSince s.tickno s.sys.power.serveT) := by
  and_intros <;> decide +kernel

/-- A bundle with one empty section, its key and signature all ones. -/
def bundleImg : List Byte := header 2 20 0x5401259B ++ [1, 0] ++ List.replicate 18 0 ++ List.replicate 192 0xFF

theorem bundleImg_valid (h : Trusts) : State.reset.imageFault 2 bundleImg = none := by
  have e1 : getLe bundleImg 6 1 = 0 := by decide +kernel
  have e2 : (bundleImg.drop (64 + bodyLen bundleImg)).take 96 = List.replicate 96 0xFF := by decide +kernel
  have e3 : (bundleImg.drop (160 + bodyLen bundleImg)).take 96 = List.replicate 96 0xFF := by decide +kernel
  have e4 : ¬ bundleImg.length < imgLen 2 bundleImg := by decide +kernel
  have e5 : State.reset.headerOk 2 bundleImg = true := by decide +kernel
  have e6 : State.reset.svnOk 2 bundleImg = true := by decide +kernel
  have e7 : bundleOk (imgBody bundleImg) = true := by decide +kernel
  have k1 : State.reset.bit RST.KEY_STATE 0 = true := by decide +kernel
  have k2 : State.reset.bit RST.KEY_STATE 4 = false := by decide +kernel
  have e8 : State.reset.sigOk 2 bundleImg = true := by
    simp only [State.sigOk, e1, e2, e3, h.2, k1, k2, State.keyHash, h.1, if_true]
    simp
  simp [State.imageFault, e5, e4, e8, e6, e7]

/-- A reset state with the images, the self-test or the test port changed so. -/
def imaged' (f : Images → Images) : State := (serving []).modSys fun y => { y with images := f y.images }

theorem witness_ImagesHealthKeysAndTestPort (h : Trusts) :
    State.reset.imageFault 2 bundleImg = none ∧ State.reset.imageFault 2 [] = some "IMAGE_CRC" :=
  ⟨bundleImg_valid h, by decide +kernel⟩

theorem witness_ImagesHealthKeysAndTestPort_other :
    (State.reset.sys.images.write = none ∧ State.reset.sys.images.recipe = none ∧ State.reset.sys.images.sign = [] ∧
      State.reset.sys.selfTest = none) ∧
    (∀ x ∈ [(true, false), (true, true)],
      let g : ImgSeg := ⟨sleepRef, x.1, x.2, 0, [1, 2]⟩
      let s := imaged' fun m => { m with write := some ⟨1, 1, 1, 2, some g⟩ }
      s.sys.images.write = some ⟨1, 1, 1, 2, some g⟩ ∧ g.offset + g.data.length ≤ (copyArea 1 1).2) ∧
    (let w : RecipeLoad := ⟨3, 0, 1, bundleImg, some sleepRef⟩
     (imaged' fun m => { m with recipe := some w }).sys.images.recipe = some w ∧ w.source = 3 ∧ w.ref = some sleepRef) ∧
    (let s := serving [(RST.FLAGS, 32)]
     s.bit RST.FLAGS 5 = true ∧ s.sys.mcState = 2 ∧ s.noFlash = false) ∧
    (∀ k ∈ [0, 7, 8, 15, 16, 23, 24, 31, 32, 39, 40, 41, 42, 43, 44, 45],
      (State.reset.modSys fun y => { y with selfTest := some ⟨k, some sleepRef⟩ }).sys.selfTest = some ⟨k, some sleepRef⟩) ∧
    (State.reset.rd DEV.SERVING_DIE < 2 ∧ (powered [] fun p => { p with entryTo := 3 }).sys.power.entryTo = 3) ∧
    ((3 : Fin 4) ≠ 0 ∧ State.reset.bit RST.KEY_STATE 3 = false ∧ (st [(RST.KEY_STATE, 9)]).bit RST.KEY_STATE 3 = true) ∧
    (∀ b ∈ [true, false], let s := (serving []).modSys fun y => { y with jtag := { y.jtag with cleared := b } }
      Served s (req (List.replicate 48 1)) ∧ (List.replicate 48 (1 : Byte)).length = 48 ∧ s.sys.jtag.cleared = b ∧ s.opRuns 0x01 = false) ∧
    ({ serving [] with longOps := [{ op9 with ref := { op9.ref with op := 1 } }] } : State).opRuns 0x01 = true ∧
    (imaged' fun m => { m with sign := [(sleepRef, [1])] }).sys.images.sign = (sleepRef, [1]) :: [] := by
  and_intros <;> decide +kernel

/-! ### Witnesses: Tenon -/

/-- A device of this role with these fields, its Tenon link changed so; `rafter` is one whose upstream port is UP. -/
def linked (role : Nat) (l : List (Nat × Nat)) (f : Ten → Ten) : State :=
  (st ((DEV.ROLE, role) :: l)).modSys fun y => { y with mcState := 2, ten := f y.ten }
def rafter (l : List (Nat × Nat)) (f : Ten → Ten) : State := linked 2 ((TEN.STATE 0, 2) :: l) f

/-- Port 1 stands at this step, or waits out its 10 ms. -/
def atStep (k : Nat) (w : Bool) (t : Ten) : Ten := { t with ports := [TenPort.reset, { TenPort.reset with step := k, waiting := w }] }

theorem witness_TenonLinkAndTime :
    (∀ k ∈ [1, 2, 4, 5, 6], let s := linked 1 [(TEN.STATE 1, 1)] (atStep k false)
      s.rd (TEN.STATE 1) = 1 ∧ (s.port 1).step = k ∧ s.rd DEV.ROLE = 1) ∧
    ((rafter [] id).rd (TEN.CHAIN_STATE 0) ≤ 1 ∧ State.reset.rd (TEN.STATE 1) ≠ 1) ∧
    (let s := linked 1 [(TEN.STATE 1, 4), (TEN.EN 1, 1)] (atStep 0 true)
     (s.port 1).waiting = true ∧ s.rd (TEN.EN 1) = 1) ∧
    (∀ b ∈ [0, 32], let s := linked 1 [(TEN.STATE 1, 2), (TEN.FLAGS 1, b)] id
      s.portUp 1 = true ∧ s.bit (TEN.FLAGS 1) 5 = decide (b = 32)) ∧
    ((rafter [(TEN.CHAIN_STATE 0, 4)] id).joined = true ∧ (rafter [] id).rafterUp = true ∧ State.reset.rafterUp = false ∧
      State.reset.portUp 1 = false) ∧
    (let s := rafter [] fun t => { t with probing := some 9 }
     s.rafterUp = true ∧ s.sys.ten.probing = some 9 ∧ s.sys.ten.samples = [] ∧
     ((1001 : Int) - 1 + 2 * s.rdS (TEN.ASYM_COMP 0) = 2 * (500 : Nat)) ∧ (500 : Nat) < 2 ^ 24) := by
  and_intros <;> decide +kernel

theorem witness_TenonLinkAndTime_blocks :
    (let s := rafter [(TEN.CHAIN_STATE 0, 4), (TEN.STATE 1, 2)] fun t => { t with time := some (5, 0) }
     let s := { s with tickno := 5 }
     s.rafterUp = true ∧ s.joined = true ∧ s.portUp 1 = true ∧ s.tickno % 2 ^ 24 = (5 : BitVec 24).toNat ∧ s.sys.ten.time = some (5, 0) ∧
     (0 : Int) = (0 : Nat) + s.rd (TEN.LINK_DELAY 0) - 0) ∧
    (let s := rafter [(TEN.CHAIN_STATE 0, 2), (TEN.ADDR 0, 1)] fun t => { t with time := some (5, 0) }
     s.rd (TEN.CHAIN_STATE 0) = 2 ∧ s.sys.ten.loaded = false ∧ s.upMask = 0 ∧ s.rd (TEN.ADDR 0) ≠ 0 ∧ s.sys.ten.time = some (5, 0)) ∧
    (∀ p ∈ [0, 1], let s := rafter [(TEN.CHAIN_STATE 0, 5), (TEN.ADDR 0, 1), (TEN.RESYNC_POL 0, p), (LRX.STATE 7, 3)] id
      s.rd (TEN.CHAIN_STATE 0) = 5 ∧ s.rd (TEN.ADDR 0) ≠ 0 ∧ s.sys.ten.owed = false ∧ s.sys.ten.time = none ∧
      s.rd (TEN.RESYNC_POL 0) = p ∧ s.upMask ≠ 0 ∧ s.sys.resyncGo = false ∧ 0 ≤ s.rd (TEN.SLEW_MAX 0) * (24576 * (1 + s.rate 0))) ∧
    (let s := rafter [(TEN.CHAIN_STATE 0, 5), (TEN.ADDR 0, 1)] fun t => { t with owed := true, resync := some (8, 0), time := some (5, 0) }
     s.rd (TEN.CHAIN_STATE 0) = 5 ∧ s.rd (TEN.ADDR 0) ≠ 0 ∧ s.sys.ten.owed = true ∧ s.sys.ten.resync.isSome = true ∧ s.upMask = 0 ∧
     s.sys.ten.time = some (5, 0)) ∧
    ((rafter [] id).rate 0 = 0 ∧ (∀ c ∈ [0, 6, 4], (rafter [(TEN.CHAIN_STATE 0, c)] id).rd (TEN.CHAIN_STATE 0) = c)) ∧
    (let s := { rafter [(TEN.CHAIN_STATE 0, 3)] id with tickno := 4 }
     4 ≤ ticksSince s.tickno s.sys.ten.lastTick ∧ s.joined = true) ∧
    (State.reset.sys.ten.join = none ∧ (let s := linked 2 [(JNR.STATE 0, 2)] fun t => { t with join := some (1, 0, false) }
      s.sys.ten.join = some (1, 0, false) ∧ s.split = false ∧ s.sys.thermShut = false ∧ s.noJoiner = false)) ∧
    (∀ t ∈ [1, 2], let s := { linked 1 [(TEN.TSYNC_MODE 0, 2), (TEN.TSYNC_DIV 0, 0)] id with tickno := t }
      s.rd (TEN.TSYNC_MODE 0) = 2 ∧ s.bit (TEN.FLAGS 0) 7 = false ∧
      decide (2 * 2 ^ s.rd (TEN.TSYNC_DIV 0) ≤ ticksSince s.tickno s.sys.ten.lastEdge) = decide (t = 2)) ∧
    State.reset.rd (TEN.TSYNC_MODE 0) ≠ 2 := by
  and_intros <;> decide +kernel

/-- A ridge that has forwarded one request to rafter a. -/
def forwarded (a : Nat) : State :=
  linked 1 [(TEN.STATE 1, 2)] fun t => { t with fwd := [⟨sleepRef, a, 0, false, false⟩] }

theorem witness_TenonMessages :
    ((rafter [(TEN.STATE 1, 2)] id).rafterUp = true ∧ (rafter [(TEN.STATE 1, 2)] id).portUp 1 = true ∧
      (rafter [] id).rd (TEN.CHAIN_STATE 0) ≤ 2 ∧ (rafter [] id).rd (TEN.ADDR 0) = 0) ∧
    (IsRafter 1 ∧ IsRafter 31 ∧ ¬ IsRafter 0 ∧ ¬ IsRafter 32) ∧
    (let s := forwarded 31
     s.portUp 1 = true ∧ s.rd DEV.ROLE = 1 ∧ s.sys.ten.fwd = [⟨sleepRef, 31, 0, false, false⟩] ∧
     s.rd (TEN.PRESENT 1) ≠ 2 ^ ((30 : Byte).toNat + 1) - 2 ∧ s.rd DEV.ROLE ≠ 2) ∧
    (let s := rafter [(TEN.ADDR 0, 5), (TEN.STATE 1, 2), (TEN.CHAIN_LEN 1, 1)] id
     s.rd DEV.ROLE = 2 ∧ s.rd (TEN.ADDR 0) ≠ 0 ∧ s.rd (TEN.CHAIN_LEN 1) ≠ 31 ∧ (5 : Byte).toNat = s.rd (TEN.ADDR 0) ∧
     (4 : Byte).toNat < s.rd (TEN.ADDR 0) ∧ s.rd (TEN.ADDR 0) < (6 : Byte).toNat) ∧
    (let b : Body := .data [1, 2]
     (forwarded 31).sys.ten.fwd = [⟨sleepRef, 31, 0, false, false⟩] ∧ sleepRef.op < 256 ∧ 65535 < 65536 ∧ b.bytes.length < 65536) := by
  refine ⟨by decide +kernel, ?_, by decide +kernel, by decide +kernel, by decide +kernel⟩
  unfold IsRafter; decide

theorem witness_TenonMessages_other :
    (let s := { forwarded 31 with tickno := 10 ^ 9 }
     ∀ f ∈ s.sys.ten.fwd, Overdue s f) ∧
    (∀ f ∈ State.reset.sys.ten.fwd, ¬ Overdue State.reset f) ∧
    (let s := { rafter [(TEN.CHAIN_STATE 0, 4)] id with tickno := 1024 }
     s.joined = true ∧ s.tickno % 1024 = 0) ∧
    (let s := linked 1 [(TEN.STATE 1, 2), (OBS.IRQ_LEVEL_MASK, 32)] id
     s.recent = [] ∧ s.bit OBS.IRQ_LEVEL_MASK 5 = true) ∧
    (let s := linked 2 [(TEN.STATE 0, 3), (PWR.STATE, 2), (TEN.ADDR 0, 1)] id
     s.rd (TEN.STATE 0) = 3 ∧ s.rd (TEN.ADDR 0) ≤ (2 : Byte).toNat ∧ (s.sys.power.entry = 0 ∧ s.sys.power.wake = 0 ∧ s.sys.power.cold = 0) ∧
     s.rd PWR.STATE = 2 ∧ s.tooHot = false) ∧
    ((forwarded 31).sys.mcState = 2 ∧ (∀ k < 3, (forwarded 31).newest k = none) ∧ (1 : BitVec 3).toNat = 2 ^ 0) ∧
    (let s := rafter [(TEN.ADDR 0, 5)] fun t => { t with wanted := 2 }
     s.rafterUp = true ∧ s.rd (TEN.ADDR 0) ≠ 0 ∧ getLe [1, 0, 0, 0, 0, 0, 0, 0, 7] 0 1 = 1 ∧ s.sys.ten.wanted.testBit 1 = true ∧
     getLe [1, 0, 0, 0, 0, 0, 0, 0, 7] 2 4 + 1 < 64) ∧
    (let s := (rafter [(DEV.BOOT_SRC, 1)] id).modSys fun y => { y with recovery := true }
     s.sys.recovery = true ∧ s.linkBoot = true ∧ s.portUp 0 = true) := by
  refine ⟨?_, ?_, by decide +kernel, by decide +kernel, by decide +kernel, by decide +kernel, by decide +kernel, by decide +kernel⟩
  · unfold Overdue; decide +kernel
  · unfold Overdue; decide +kernel

/-- A ridge serves the firmware of its copy A to a rafter that asks. -/
def serves (y : Sys) : Sys := { y with mcState := 2 }

theorem witness_TenonMessages_stream (h : Trusts) : (flashed serves).newest 0 = some (0, 1) := (fw_newest h serves rfl rfl rfl).2.1

/-! ### Worked examples of the manual -/

/-- R20: the check values over "123456789". -/
theorem test_crc_check_values : crc16 (nameBytes 9 "123456789") = 0x29B1 ∧ crc32 (nameBytes 9 "123456789") = 0xCBF43926 := by
  decide +kernel

/-- Chapter 2: the context lookup and the LLRs of one symbol. -/
theorem test_context_and_llrs_of_the_example :
    contextIndex (List.replicate 125 0 ++ [3, 0, 1, 2, 2, 3]) 0 = 0xC6B ∧ contextCorr true 16 (some 0x01DB) = (29, 11) ∧
    contextCorr true 16 none = (0, 0) ∧
    (let rows := [12, 28, 46, 66, 88, 112, 140, 16, 36, 58, 82, 108, 136, 166]
     symbolLlrs ([enc 16 (-258), enc 16 (-3), 255, 0] ++ List.replicate (14 * 11) 0 ++ rows) true 130 11 = (2, 0xE, 0xD)) := by
  decide +kernel

/-- Chapter 3: one symbol to the output. -/
theorem test_shaping_and_filter_of_the_example :
    shapeIndex (List.replicate 126 0 ++ [1, 3, 0, 2, 2]) 0 = 0x1CA ∧ sgn 12 (bits 0xFEC0 15 4) = -20 ∧ nominal 0 + -20 = -404 ∧
    (firRaw [-8, -20, 212, -12, 0, 0, 0, 0, 0] 2 (List.replicate 127 0 ++ [392, -404, 130, 126])).getD 0 0 = -46 := by
  decide +kernel

/-- Chapter 4: the stored form of the entry 0x01DB, and one and two flipped bits. -/
theorem test_stored_entry_of_the_example :
    storeWord 0x01DB = 0x02602FDB ∧ readWord (0x02602FDB ^^^ 2 ^ 4) = .corrected 0x01DB ∧
    readWord (0x02602FDB ^^^ 2 ^ 4 ^^^ 2 ^ 0) = .bad := by decide +kernel

/-- Tables 8-7 to 8-10: words of the fragment of chapter 8 (VLDI V1, #128; [st1] VMAC ACC0, V5, V5; {st0} VLD V33, (A0)+M0;
REP ROT, STG = 1, LEN = 6, COUNT = 4), and words with a bit that must be zero set. -/
theorem test_words_of_the_fragment :
    decodeX 0 (0x13 * 2 ^ 26 + 1 * 2 ^ 17 + 128 * 2) = some (.vldi 0 0 1 128) ∧
    decodeX 0 (0x20 * 2 ^ 26 + 5 * 2 ^ 23 + 5 * 2 ^ 11 + 5 * 2 ^ 5) = some (.vmac 0 5 0 5 5) ∧
    decodeY 0 (0x01 * 2 ^ 26 + 33 * 2 ^ 16 + 1 * 2 ^ 11 + 4 * 2 ^ 8) = some (.vld 0 33 ⟨0, 0, 1, 4, 0⟩ ⟨0, 0⟩) ∧
    decodeY 0 (0x37 * 2 ^ 26 + 2 ^ 25 + 1 * 2 ^ 23 + 5 * 2 ^ 17 + 4 * 2 ^ 6) = some (.rep 0 true 1 5 (.imm 4) false) ∧
    decodeX 0 (0x13 * 2 ^ 26 + 1) = none ∧ decodeX 0 (0x20 * 2 ^ 26 + 2 ^ 22) = none ∧
    decodeY 0 (0x37 * 2 ^ 26 + 2 ^ 16 + 2 ^ 10) = none := by decide +kernel

/-- R58, R271: a mean of 3/4 LSB asks for OFFSET 3; CALSRC means 96 LSB apart for the factory GAIN of 512; 40 fs late for
SKEW −2. -/
theorem test_dark_method : darkFit ⟨3 * 2 ^ 18, 48 * 2 ^ 20, -48 * 2 ^ 20, 0, 40⟩ = ⟨3, 512, -2⟩ := by decide +kernel

end Sys2Proof.Tests
end

section
/-!
PROOFS. The stored form of a table entry (R121, R122): check bits, syndrome and overall parity are linear over exclusive
OR, so a read of a codeword with wrong bits sees only the syndromes and the parity of the wrong bits.
-/

namespace Sys2Proof.Machine

/-! ### Check bits -/

/-- The exclusive OR of the bits of `c` at these positions. -/
def xorBits (c : Nat) (l : List Nat) : Bool := l.foldr (fun i p => c.testBit i ^^ p) false

/-- The data bits that check bit Ck is computed from (R122). C4 takes every data bit once and then what C0 to C3 take. -/
def checkPositions : Nat → List Nat
  | 0 => [0, 1, 3, 4, 6]
  | 1 => [0, 2, 3, 5, 6]
  | 2 => [1, 2, 3, 7]
  | 3 => [4, 5, 6, 7]
  | 4 => List.range 8 ++ checkPositions 0 ++ checkPositions 1 ++ checkPositions 2 ++ checkPositions 3
  | _ => []

/-- Check bit Ck of a data byte. -/
def checkBit (d k : Nat) : Bool := xorBits d (checkPositions k)

theorem xorBits_append (c : Nat) (l m : List Nat) : xorBits c (l ++ m) = (xorBits c l ^^ xorBits c m) := by
  induction l with
  | nil => exact (Bool.false_xor _).symm
  | cons i l ih => exact (congrArg (c.testBit i ^^ ·) ih).trans (Bool.xor_assoc ..).symm

theorem xorBits_xor (a b : Nat) (l : List Nat) : xorBits (a ^^^ b) l = (xorBits a l ^^ xorBits b l) := by
  induction l with
  | nil => rfl
  | cons i l ih =>
    simp only [xorBits, List.foldr_cons, Nat.testBit_xor] at ih ⊢
    rw [ih, Bool.xor_assoc, Bool.xor_assoc, Bool.xor_left_comm (b.testBit i)]

theorem xorBits_congr {a b : Nat} {l : List Nat} (h : ∀ i ∈ l, a.testBit i = b.testBit i) : xorBits a l = xorBits b l := by
  induction l with
  | nil => rfl
  | cons i l ih =>
    have head : a.testBit i = b.testBit i := h i List.mem_cons_self
    have tail : xorBits a l = xorBits b l := ih fun j hj => h j (List.mem_cons_of_mem i hj)
    rw [xorBits, List.foldr_cons, ← xorBits, head, tail]
    rfl

theorem checkBit_xor (a b k : Nat) : checkBit (a ^^^ b) k = (checkBit a k ^^ checkBit b k) := xorBits_xor a b _

theorem xorBits_range_eight (d : Nat) : xorBits d (List.range 8) = (d.testBit 0 ^^ d.testBit 1 ^^ d.testBit 2 ^^ d.testBit 3 ^^
    d.testBit 4 ^^ d.testBit 5 ^^ d.testBit 6 ^^ d.testBit 7) := by
  simp only [show List.range 8 = [0, 1, 2, 3, 4, 5, 6, 7] from rfl, xorBits, List.foldr_cons, List.foldr_nil, Bool.xor_false,
    Bool.xor_assoc]

/-- C0 to C3 as R122 writes them. -/
theorem checkBit_parities (d : Nat) :
    checkBit d 0 = (d.testBit 0 ^^ d.testBit 1 ^^ d.testBit 3 ^^ d.testBit 4 ^^ d.testBit 6) ∧
    checkBit d 1 = (d.testBit 0 ^^ d.testBit 2 ^^ d.testBit 3 ^^ d.testBit 5 ^^ d.testBit 6) ∧
    checkBit d 2 = (d.testBit 1 ^^ d.testBit 2 ^^ d.testBit 3 ^^ d.testBit 7) ∧
    checkBit d 3 = (d.testBit 4 ^^ d.testBit 5 ^^ d.testBit 6 ^^ d.testBit 7) := by
  simp only [checkBit, checkPositions, xorBits, List.foldr_cons, List.foldr_nil, Bool.xor_false, Bool.xor_assoc, and_self]

theorem checkBit_four (d : Nat) : checkBit d 4 =
    (d.testBit 0 ^^ d.testBit 1 ^^ d.testBit 2 ^^ d.testBit 3 ^^ d.testBit 4 ^^ d.testBit 5 ^^ d.testBit 6 ^^ d.testBit 7 ^^
      checkBit d 0 ^^ checkBit d 1 ^^ checkBit d 2 ^^ checkBit d 3) := by
  rw [← xorBits_range_eight]
  simp only [checkBit, checkPositions, xorBits_append, Bool.xor_assoc]

theorem checkBit_add_five (d k : Nat) : checkBit d (k + 5) = false := by
  simp only [checkBit, checkPositions]
  rfl

theorem testBit_toNat_add_zero (b : Bool) (n : Nat) : (b.toNat + 2 * n).testBit 0 = b := by
  rw [Nat.testBit_zero, Nat.add_mul_mod_self_left]
  cases b <;> rfl

theorem testBit_toNat_add_succ (b : Bool) (n k : Nat) : (b.toNat + 2 * n).testBit (k + 1) = n.testBit k := by
  have half : (b.toNat + 2 * n) / 2 = n := by
    have := Bool.toNat_le b
    omega
  rw [Nat.testBit_succ, half]

/-- The check bits as a binary numeral, C0 last. -/
theorem checkBits_eq (d : Nat) : checkBits d = (checkBit d 0).toNat + 2 * ((checkBit d 1).toNat + 2 * ((checkBit d 2).toNat +
    2 * ((checkBit d 3).toNat + 2 * ((checkBit d 4).toNat + 2 * 0)))) := by
  obtain ⟨h0, h1, h2, h3⟩ := checkBit_parities d
  rw [checkBit_four, h0, h1, h2, h3]
  simp only [checkBits]
  omega

theorem testBit_checkBits (d k : Nat) : (checkBits d).testBit k = checkBit d k := by
  rw [checkBits_eq]
  match k with
  | 0 | 1 | 2 | 3 | 4 => simp only [testBit_toNat_add_succ, testBit_toNat_add_zero]
  | k + 5 => simp only [testBit_toNat_add_succ, Nat.zero_testBit, checkBit_add_five]

theorem checkBits_lt (d : Nat) : checkBits d < 2 ^ 5 := by
  refine Nat.lt_pow_two_of_testBit _ fun k hk => ?_
  obtain ⟨k, rfl⟩ := Nat.exists_eq_add_of_le' hk
  rw [testBit_checkBits, checkBit_add_five]

theorem checkBits_xor (a b : Nat) : checkBits (a ^^^ b) = checkBits a ^^^ checkBits b :=
  Nat.eq_of_testBit_eq fun k => by simp only [Nat.testBit_xor, testBit_checkBits, checkBit_xor]

/-! ### Codewords -/

theorem codeByte_eq {d : Nat} (hd : d < 256) : codeByte d = 2 ^ 8 * checkBits d + d := by
  simp only [codeByte, Nat.mod_eq_of_lt hd, Nat.add_comm, Nat.reducePow]

theorem codeByte_mod_256 (d : Nat) : codeByte (d % 256) = codeByte d := by
  rw [codeByte, codeByte, Nat.mod_mod]

theorem codeByte_mod {d : Nat} (hd : d < 256) : codeByte d % 256 = d := by
  rw [codeByte_eq hd]
  omega

theorem codeByte_div {d : Nat} (hd : d < 256) : codeByte d / 2 ^ 8 = checkBits d := by
  rw [codeByte_eq hd]
  omega

theorem testBit_codeByte_data {d i : Nat} (hd : d < 256) (hi : i < 8) : (codeByte d).testBit i = d.testBit i := by
  rw [codeByte_eq hd, Nat.testBit_two_pow_mul_add _ hd, if_pos hi]

theorem testBit_codeByte_check {d : Nat} (hd : d < 256) (k : Nat) : (codeByte d).testBit (8 + k) = checkBit d k := by
  rw [codeByte_eq hd, Nat.testBit_two_pow_mul_add _ hd, if_neg (by omega), Nat.add_sub_cancel_left, testBit_checkBits]

/-! ### Syndrome and overall parity of a stored codeword (Table 4-3) -/

/-- The syndrome: C3 to C0 computed again from the data bits, against the stored ones. -/
def byteSyndrome (c : Nat) : Nat := checkBits (c % 256) % 16 ^^^ bits c 11 8

/-- The overall parity P of the 13 stored bits. -/
def byteParity (c : Nat) : Bool := xorBits c (List.range 13)

theorem length_filter_testBit_mod_two (c : Nat) (l : List Nat) :
    (l.filter fun i => c.testBit i).length % 2 = (xorBits c l).toNat := by
  induction l with
  | nil => rfl
  | cons i l ih =>
    rw [xorBits, List.foldr_cons, ← xorBits]
    cases hi : c.testBit i with
    | false => rw [List.filter_cons_of_neg (by simp [hi]), ih, Bool.false_xor]
    | true =>
      rw [List.filter_cons_of_pos hi, List.length_cons, Nat.add_mod, ih, Bool.true_xor]
      cases xorBits c l <;> rfl

theorem length_filter_testBit (c : Nat) : ((List.range 13).filter fun i => c.testBit i).length % 2 = (byteParity c).toNat :=
  length_filter_testBit_mod_two c _

theorem bits_xor (a b hi lo : Nat) : bits (a ^^^ b) hi lo = bits a hi lo ^^^ bits b hi lo := by
  simp only [bits, Nat.xor_div_two_pow, Nat.xor_mod_two_pow]

theorem byteSyndrome_xor (a b : Nat) : byteSyndrome (a ^^^ b) = byteSyndrome a ^^^ byteSyndrome b := by
  have data : (a ^^^ b) % 256 = a % 256 ^^^ b % 256 := Nat.xor_mod_two_pow (n := 8)
  have low (x y : Nat) : (x ^^^ y) % 16 = x % 16 ^^^ y % 16 := Nat.xor_mod_two_pow (n := 4)
  simp only [byteSyndrome, data, checkBits_xor, low, bits_xor]
  ac_rfl

theorem byteParity_xor (a b : Nat) : byteParity (a ^^^ b) = (byteParity a ^^ byteParity b) := xorBits_xor a b _

theorem byteSyndrome_codeByte {d : Nat} (hd : d < 256) : byteSyndrome (codeByte d) = 0 := by
  rw [byteSyndrome, codeByte_mod hd, bits, codeByte_div hd]
  exact Nat.xor_self _

theorem xorBits_codeByte_range_twelve {d : Nat} (hd : d < 256) : xorBits (codeByte d) (List.range 12) = checkBit d 4 := by
  have data : xorBits (codeByte d) (List.range 8) = xorBits d (List.range 8) :=
    xorBits_congr fun i hi => testBit_codeByte_data hd (List.mem_range.1 hi)
  have check : xorBits (codeByte d) [8, 9, 10, 11] = (checkBit d 0 ^^ (checkBit d 1 ^^ (checkBit d 2 ^^ checkBit d 3))) := by
    simp only [← testBit_codeByte_check hd, xorBits, List.foldr_cons, List.foldr_nil, Bool.xor_false, Nat.reduceAdd]
  rw [show List.range 12 = List.range 8 ++ [8, 9, 10, 11] from rfl, xorBits_append, data, check, checkBit_four,
    ← xorBits_range_eight]
  simp only [Bool.xor_assoc]

/-- C4 repeats the parity of the twelve bits below it, so the number of ones is even. -/
theorem byteParity_codeByte {d : Nat} (hd : d < 256) : byteParity (codeByte d) = false := by
  have last : xorBits (codeByte d) [12] = checkBit d 4 := (Bool.xor_false _).trans (testBit_codeByte_check hd 4)
  rw [byteParity, show List.range 13 = List.range 12 ++ [12] from rfl, xorBits_append, xorBits_codeByte_range_twelve hd, last,
    Bool.xor_self]

theorem byteParity_two_pow : ∀ i < 13, byteParity (2 ^ i) = true := by decide

/-- The thirteen syndromes of Table 4-3 (0 for C4) are distinct. -/
theorem byteSyndrome_two_pow_ne : ∀ j < 13, ∀ i < j, byteSyndrome (2 ^ i) ^^^ byteSyndrome (2 ^ j) ≠ 0 := by decide

/-! ### Reads of one codeword (Table 4-4) -/

theorem readByte_clean {c : Nat} (hs : byteSyndrome c = 0) (hp : byteParity c = false) : readByte c = .clean (c % 256) := by
  simp only [readByte]
  rw [length_filter_testBit, ← byteSyndrome, hs, hp]
  rfl

theorem readByte_bad {c : Nat} (hs : byteSyndrome c ≠ 0) (hp : byteParity c = false) : readByte c = .bad := by
  simp only [readByte]
  rw [length_filter_testBit, ← byteSyndrome, if_neg hs, hp, if_neg (by simp)]

theorem readByte_corrected_data {c i : Nat} (hi : i < 8) (hs : byteSyndrome c = byteSyndrome (2 ^ i)) (hp : byteParity c = true) :
    readByte c = .corrected (c % 256 ^^^ 2 ^ i) := by
  simp only [readByte]
  rw [length_filter_testBit, ← byteSyndrome, hs, hp]
  match i, hi with
  | 0, _ | 1, _ | 2, _ | 3, _ | 4, _ | 5, _ | 6, _ | 7, _ => rfl

theorem readByte_corrected_check {c k : Nat} (hk : k < 5) (hs : byteSyndrome c = byteSyndrome (2 ^ (8 + k)))
    (hp : byteParity c = true) : readByte c = .corrected (c % 256) := by
  simp only [readByte]
  rw [length_filter_testBit, ← byteSyndrome, hs, hp]
  match k, hk with
  | 0, _ | 1, _ | 2, _ | 3, _ | 4, _ => rfl

theorem readByte_codeByte {d : Nat} (hd : d < 256) : readByte (codeByte d) = .clean d := by
  rw [readByte_clean (byteSyndrome_codeByte hd) (byteParity_codeByte hd), codeByte_mod hd]

theorem readByte_codeByte_flip {d i : Nat} (hd : d < 256) (hi : i < 13) : readByte (codeByte d ^^^ 2 ^ i) = .corrected d := by
  have hs : byteSyndrome (codeByte d ^^^ 2 ^ i) = byteSyndrome (2 ^ i) := by
    rw [byteSyndrome_xor, byteSyndrome_codeByte hd, Nat.zero_xor]
  have hp : byteParity (codeByte d ^^^ 2 ^ i) = true := by
    rw [byteParity_xor, byteParity_codeByte hd, byteParity_two_pow i hi, Bool.false_xor]
  have hm : (codeByte d ^^^ 2 ^ i) % 256 = d ^^^ 2 ^ i % 256 :=
    (Nat.xor_mod_two_pow (n := 8)).trans (congrArg (· ^^^ 2 ^ i % 256) (codeByte_mod hd))
  by_cases data : i < 8
  · have hlt : 2 ^ i < 256 := Nat.pow_lt_pow_right (m := i) (n := 8) (by decide) data
    rw [readByte_corrected_data data hs hp, hm, Nat.mod_eq_of_lt hlt, Nat.xor_assoc, Nat.xor_self, Nat.xor_zero]
  · obtain ⟨k, rfl⟩ := Nat.exists_eq_add_of_le (Nat.le_of_not_lt data)
    have hz : 2 ^ (8 + k) % 256 = 0 := by rw [Nat.pow_add]; exact Nat.mul_mod_right 256 _
    rw [readByte_corrected_check (by omega) hs hp, hm, hz, Nat.xor_zero]

theorem readByte_codeByte_flip_flip {d i j : Nat} (hd : d < 256) (hij : i < j) (hj : j < 13) :
    readByte (codeByte d ^^^ 2 ^ i ^^^ 2 ^ j) = .bad := by
  have hs : byteSyndrome (codeByte d ^^^ 2 ^ i ^^^ 2 ^ j) ≠ 0 := by
    rw [byteSyndrome_xor, byteSyndrome_xor, byteSyndrome_codeByte hd, Nat.zero_xor]
    exact byteSyndrome_two_pow_ne j hj i hij
  refine readByte_bad hs ?_
  rw [byteParity_xor, byteParity_xor, byteParity_codeByte hd, byteParity_two_pow i (Nat.lt_trans hij hj), byteParity_two_pow j hj]
  rfl

/-! ### The stored bits of an entry -/

theorem codeByte_lt (d : Nat) : codeByte d < 8192 := by
  have := checkBits_lt (d % 256)
  rw [codeByte]
  omega

theorem storeWord_div (e : Nat) : storeWord e / 8192 = codeByte (e / 256) := by
  have := codeByte_lt e
  rw [storeWord]
  omega

theorem storeWord_mod (e : Nat) : storeWord e % 8192 = codeByte (e % 256) := by
  rw [storeWord, Nat.mul_add_mod_self_right, Nat.mod_eq_of_lt (codeByte_lt e), codeByte_mod_256]

/-- A wrong bit below 13 is a wrong bit of the low codeword. -/
theorem xor_two_pow_low (w : Nat) {i : Nat} (hi : i < 13) :
    (w ^^^ 2 ^ i) / 8192 = w / 8192 ∧ (w ^^^ 2 ^ i) % 8192 = w % 8192 ^^^ 2 ^ i := by
  have lt : 2 ^ i < 2 ^ 13 := Nat.pow_lt_pow_right (by decide) hi
  rw [show 8192 = 2 ^ 13 from rfl, Nat.xor_div_two_pow, Nat.xor_mod_two_pow, Nat.div_eq_of_lt lt,
    Nat.mod_eq_of_lt lt, Nat.xor_zero]
  exact ⟨rfl, rfl⟩

/-- A wrong bit from 13 up is a wrong bit of the high codeword. -/
theorem xor_two_pow_high (w i : Nat) :
    (w ^^^ 2 ^ (13 + i)) / 8192 = w / 8192 ^^^ 2 ^ i ∧ (w ^^^ 2 ^ (13 + i)) % 8192 = w % 8192 := by
  rw [show 8192 = 2 ^ 13 from rfl, Nat.xor_div_two_pow, Nat.xor_mod_two_pow, Nat.pow_add, Nat.mul_div_cancel_left _ (by decide),
    Nat.mul_mod_right, Nat.xor_zero]
  exact ⟨rfl, rfl⟩

theorem readWord_storeWord {e : Nat} (he : e < 65536) : readWord (storeWord e) = .clean e := by
  have hh : e / 256 < 256 := Nat.div_lt_of_lt_mul he
  have hl : e % 256 < 256 := Nat.mod_lt _ (by decide)
  simp only [readWord, storeWord_div, storeWord_mod, readByte_codeByte hh, readByte_codeByte hl, Nat.div_add_mod]

theorem readWord_storeWord_flip {e i : Nat} (he : e < 65536) (hi : i < 26) :
    readWord (storeWord e ^^^ 2 ^ i) = .corrected e := by
  have hh : e / 256 < 256 := Nat.div_lt_of_lt_mul he
  have hl : e % 256 < 256 := Nat.mod_lt _ (by decide)
  by_cases low : i < 13
  · simp only [readWord, xor_two_pow_low _ low, storeWord_div, storeWord_mod, readByte_codeByte hh,
      readByte_codeByte_flip hl low, Nat.div_add_mod]
  · obtain ⟨i, rfl⟩ := Nat.exists_eq_add_of_le (Nat.le_of_not_lt low)
    have high : i < 13 := Nat.lt_of_add_lt_add_left hi
    simp only [readWord, xor_two_pow_high, storeWord_div, storeWord_mod, readByte_codeByte_flip hh high, readByte_codeByte hl,
      Nat.div_add_mod]

theorem readWord_storeWord_flip_flip_low {e i j : Nat} (he : e < 65536) (hij : i < j) (hj : j < 13) :
    readWord (storeWord e ^^^ 2 ^ i ^^^ 2 ^ j) = .bad := by
  have hh : e / 256 < 256 := Nat.div_lt_of_lt_mul he
  have hl : e % 256 < 256 := Nat.mod_lt _ (by decide)
  simp only [readWord, xor_two_pow_low _ hj, xor_two_pow_low _ (Nat.lt_trans hij hj), storeWord_div, storeWord_mod,
    readByte_codeByte hh, readByte_codeByte_flip_flip hl hij hj]

theorem readWord_storeWord_flip_flip_high {e i j : Nat} (he : e < 65536) (hij : i < j) (hj : j < 13) :
    readWord (storeWord e ^^^ 2 ^ (13 + i) ^^^ 2 ^ (13 + j)) = .bad := by
  have hh : e / 256 < 256 := Nat.div_lt_of_lt_mul he
  simp only [readWord, xor_two_pow_high, storeWord_div, readByte_codeByte_flip_flip hh hij hj]

theorem readWord_storeWord_flip_flip {e i j : Nat} (he : e < 65536) (hij : i < j) (hj : j < 26) (same : j < 13 ∨ 13 ≤ i) :
    readWord (storeWord e ^^^ 2 ^ i ^^^ 2 ^ j) = .bad := by
  obtain low | high := same
  · exact readWord_storeWord_flip_flip_low he hij low
  · obtain ⟨i, rfl⟩ := Nat.exists_eq_add_of_le high
    obtain ⟨j, rfl⟩ := Nat.exists_eq_add_of_le (Nat.le_trans high (Nat.le_of_lt hij))
    exact readWord_storeWord_flip_flip_high he (by omega) (by omega)

/-- Settles O39: check bits, syndrome and parity are linear over exclusive OR, so a read sees the wrong bits alone. -/
theorem entriesAreStoredAsTwoCodewords : Obligations.EntriesAreStoredAsTwoCodewords := by
  unfold Obligations.EntriesAreStoredAsTwoCodewords
  refine ⟨fun e _ => ?_, fun d hd => ?_, fun e he => ?_, fun e f _ _ => ⟨fun h => ?_, fun h => ?_⟩⟩
  · exact ⟨codeByte (e / 256), codeByte (e % 256), by rw [codeByte_mod_256]; rfl, codeByte_lt _, codeByte_lt _, rfl, rfl⟩
  · refine ⟨codeByte_mod hd, codeByte_lt d, ?_⟩
    simp only [testBit_codeByte_check hd]
    obtain ⟨h0, h1, h2, h3⟩ := checkBit_parities d
    exact ⟨h0, h1, h2, h3, checkBit_four d⟩
  · exact ⟨readWord_storeWord he, fun i hi => readWord_storeWord_flip he hi,
      fun i j hij hj same => readWord_storeWord_flip_flip he hij hj same⟩
  · exact (storeWord_mod e).trans ((congrArg codeByte h).trans (storeWord_mod f).symm)
  · exact (storeWord_div e).trans ((congrArg codeByte h).trans (storeWord_div f).symm)

end Sys2Proof.Machine
end

section
/-!
PROOFS. R148: the encoder deals the payload bits of a block over its four codewords in turn, and the receiver collects
them in the same order. The information bits of a codeword are sent as they are, since no coset mask reaches below bit
120 (R150).
-/

namespace Sys2Proof.Machine

theorem getD_map_range {α : Type} (f : Nat → α) (d : α) {n i : Nat} (hi : i < n) : ((List.range n).map f).getD i d = f i := by
  rw [List.getD_eq_getElem?_getD, List.getElem?_map, List.getElem?_range hi, Option.map_some, Option.getD_some]

theorem getD_take_of_lt {α : Type} (l : List α) (d : α) {n i : Nat} (hi : i < n) : (l.take n).getD i d = l.getD i d := by
  rw [List.getD_eq_getElem?_getD, List.getElem?_take_of_lt hi, List.getD_eq_getElem?_getD]

theorem getD_append_of_lt {α : Type} (l m : List α) (d : α) {i : Nat} (hi : i < l.length) : (l ++ m).getD i d = l.getD i d := by
  rw [List.getD_eq_getElem?_getD, List.getElem?_append_left hi, List.getD_eq_getElem?_getD]

theorem getD_eq_getElem_of_lt {α : Type} (l : List α) (d : α) {i : Nat} (hi : i < l.length) : l.getD i d = l[i]'hi := by
  rw [List.getD_eq_getElem?_getD, List.getElem?_eq_getElem hi, Option.getD_some]

theorem cosetBit_information (c : Nat) {i : Nat} (hi : i < 120) : cosetBit c i = false := by
  rw [cosetBit, decide_eq_false (Nat.not_le.mpr hi), Bool.false_and]

/-- The inner code is systematic: information bit `i` is bit `i` of the codeword. -/
theorem encodeWord_getD_information (c : Nat) {info : List Bool} (hlen : info.length = 120) {i : Nat} (hi : i < 120) :
    (encodeWord c info).getD i false = info.getD i false := by
  have hinfo : i < info.length := hlen ▸ hi
  rw [encodeWord, getD_map_range _ _ (Nat.lt_trans hi (by decide)), cosetBit_information c hi, Bool.xor_false, List.append_assoc,
    getD_append_of_lt _ _ _ hinfo]

/-- Information bit `m` of codeword `t` is payload bit `4 m + t` (R148). -/
theorem encodeBlock_getD_information (bs : List Bool) {t m : Nat} (ht : t < 4) (hm : m < 120) :
    ((encodeBlock bs).getD t []).getD m false = bs.getD (4 * m + t) false := by
  rw [encodeBlock, getD_map_range _ _ ht, encodeWord_getD_information t (by rw [List.length_map, List.length_range]) hm, getD_map_range _ _ hm]

/-- Bit `t` of the `m`-th group of four of a list. -/
theorem take_four_drop_getD (bs : List Bool) (m : Nat) {t : Nat} (ht : t < 4) :
    ((bs.drop (4 * m)).take 4).getD t false = bs.getD (4 * m + t) false := by
  rw [getD_take_of_lt _ _ ht, List.getD_eq_getElem?_getD, List.getElem?_drop, List.getD_eq_getElem?_getD]

theorem length_blockPayload (ds : List Decoded) : (blockPayload ds).length = 480 := by
  rw [blockPayload, List.length_map, List.length_range]

/-- The receiver reads payload bit `b` from information bit `b / 4` of decoded codeword `b mod 4` (R148). -/
theorem blockPayload_getD {ds : List Decoded} (hlen : ds.length = 4) (d : Decoded) {b : Nat} (hb : b < 480) :
    (blockPayload ds).getD b false = (ds.getD (b % 4) d).info.getD (b / 4) false := by
  have hc : b % 4 < ds.length := by rw [hlen]; exact Nat.mod_lt b (by decide)
  rw [blockPayload, getD_map_range _ _ hb, List.getElem?_eq_getElem hc, getD_eq_getElem_of_lt _ _ hc]

/-- Decoded codewords whose information bits are the sent ones give the sent payload back. -/
theorem blockPayload_of_information_eq {bs : List Bool} (hbs : bs.length = 480) {ds : List Decoded} (hds : ds.length = 4)
    (d : Decoded) (sent : ∀ c < 4, (ds.getD c d).info = ((encodeBlock bs).getD c []).take 120) : blockPayload ds = bs := by
  refine List.ext_getElem ((length_blockPayload ds).trans hbs.symm) fun b hb hb' => ?_
  have hb480 : b < 480 := hbs ▸ hb'
  have hc : b % 4 < 4 := Nat.mod_lt b (by decide)
  have hm : b / 4 < 120 := Nat.div_lt_of_lt_mul hb480
  calc (blockPayload ds)[b]'hb
    _ = (blockPayload ds).getD b false := (getD_eq_getElem_of_lt _ _ hb).symm
    _ = (((encodeBlock bs).getD (b % 4) []).take 120).getD (b / 4) false := by
      rw [blockPayload_getD hds d hb480, sent _ hc]
    _ = ((encodeBlock bs).getD (b % 4) []).getD (b / 4) false := getD_take_of_lt _ _ hm
    _ = bs.getD b false := by rw [encodeBlock_getD_information bs hc hm, Nat.div_add_mod]
    _ = bs[b]'hb' := getD_eq_getElem_of_lt _ _ hb'

/-- Settles O38: bit `t` of pair `m` and information bit `m` of codeword `t` are both payload bit `4 m + t`. -/
theorem pairsSpreadOverCodewords : Obligations.PairsSpreadOverCodewords := by
  unfold Obligations.PairsSpreadOverCodewords
  refine fun bs hbs => ⟨fun b hb => ?_, fun m hm => ⟨?_, fun t ht => ?_⟩, fun ds hds sent =>
    blockPayload_of_information_eq hbs hds _ sent⟩
  · have ht : b % 4 < 4 := Nat.mod_lt b (by decide)
    have hm : b / 4 < 120 := Nat.div_lt_of_lt_mul hb
    rw [take_four_drop_getD bs _ ht, encodeBlock_getD_information bs ht hm, Nat.div_add_mod]
    exact ⟨rfl, rfl⟩
  · rw [List.length_take, List.length_drop, hbs]
    omega
  · rw [encodeBlock_getD_information bs ht hm, take_four_drop_getD bs m ht]

end Sys2Proof.Machine
end
